-- ==== Sys2Proof/Word.lean ====
section
/-! DEFINITION. The two word types of the part: a byte of the slot link and a 16-bit level. -/

namespace Sys2Proof

/-- One byte: a data byte of the link, a slot value, a byte of a header or a cell (spec/00, Conventions). -/
abbrev Byte := BitVec 8

/-- A level, 0 to 65535 (spec/00, Conventions); also the type of the part's other 16-bit quantities. -/
abbrev Level := BitVec 16

end Sys2Proof
end

