-- ==== Sys2Proof/Syntax.lean ====
section
/-! DEFINITION. The commands of the block: one constructor per row of spec/opcode_table.json, in the
table's order, with the operands the spec gives that step. -/

namespace Sys2Proof

/-- The six Arguments bytes of a management cell, A1 to A6 (spec/09, section 9.2). -/
structure Args where
  a1 : Byte
  a2 : Byte
  a3 : Byte
  a4 : Byte
  a5 : Byte
  a6 : Byte
  deriving DecidableEq, Repr

/-- A management cell's fields but for Kind, Code and cell check (spec/07, section 7.1; spec/09, section
9.2). The row that carries it gives the Code; the Kind is REQUEST and the cell check is correct. -/
structure Req where
  /-- Destination: a position, or 255 for every node. -/
  destination : Byte
  /-- Tag: the controller's own value. -/
  tag : Byte
  /-- Status: not read in a request (R182). -/
  status : Byte
  /-- Object. -/
  object : Byte
  /-- Index. -/
  index : BitVec 16
  /-- Arguments A1 to A6. -/
  args : Args
  /-- The count byte: read by WRITE_CURVE alone (R182). -/
  count : Byte
  deriving DecidableEq, Repr

/-- How much of a table operation's completion a command carries. R40 and R178 part it in two, between which a node
status byte can be composed: the unit becomes idle, then TABLE_OP_DONE is placed. The whole completion is the step
that the row of the table names, and what a command carries that names no part (log 17). -/
inductive Completion where
  /-- both parts. -/
  | whole
  /-- the unit becomes idle, and TABLE_OP_DONE is still to be placed. -/
  | unitIdle
  /-- the TABLE_OP_DONE still to be placed is placed. -/
  | recordPlaced
  deriving DecidableEq, Repr

/-- The steps of the part. `sns` is the level of the eight sense lines at the step, line n at bit n, for the
steps at which the Sense Unit samples its lines (R127) or a reset may take them (R130, R145). -/
inductive Instr where
  /-- POWER_ON (R2). -/
  | powerOn (sns : Byte)
  /-- RESET_N_RELEASE (R1). -/
  | resetNRelease (sns : Byte)
  /-- FRAME_START_MARKER_ARRIVAL (R4). -/
  | frameStartMarkerArrival (sns : Byte)
  /-- DATA_BYTE_ARRIVAL (R14). -/
  | dataByteArrival (b : Byte)
  /-- HEADER_EIGHTH_BYTE_ARRIVAL (R5). -/
  | headerEighthByteArrival (b : Byte)
  /-- CELL_LAST_BYTE_ARRIVAL (R19). -/
  | cellLastByteArrival (b : Byte)
  /-- SLOT_ARRIVAL (R59). -/
  | slotArrival (b : Byte)
  /-- FRAME_CHECK_SECOND_BYTE_ARRIVAL (R18). -/
  | frameCheckSecondByteArrival (b : Byte) (sns : Byte)
  /-- ABORT_MARKER_ARRIVAL (R17). -/
  | abortMarkerArrival (sns : Byte)
  /-- IDLE_ARRIVAL (R17, R3). -/
  | idleArrival (sns : Byte)
  /-- SYMBOL_SEND (R14). -/
  | symbolSend
  /-- FRAME_TIMEOUT_EXPIRY (R8). -/
  | frameTimeoutExpiry (sns : Byte)
  /-- BASE_TICK (R79, R127). -/
  | baseTick (sns : Byte)
  /-- STEP_TICK (R80, R90 to R97). -/
  | stepTick
  /-- PERIOD_END (R109). -/
  | periodEnd (channel : Fin 16)
  /-- DIM_DUTY_END (R108). -/
  | dimDutyEnd (channel : Fin 16)
  /-- COPY_ENTRY_COPIED (R42). -/
  | copyEntryCopied
  /-- COPY_COMPLETE (R42). -/
  | copyComplete (part : Completion := .whole)
  /-- COMMIT_ENTRY_EXAMINED (R44). -/
  | commitEntryExamined
  /-- COMMIT_COMPLETE (R45). -/
  | commitComplete (part : Completion := .whole)
  /-- READ_IDENTITY (R152). -/
  | readIdentity (q : Req)
  /-- READ_STATUS (R153). -/
  | readStatus (q : Req)
  /-- SET_NODE (R154). -/
  | setNode (q : Req)
  /-- READ_NODE (R154). -/
  | readNode (q : Req)
  /-- WRITE_ENTRY (R35). -/
  | writeEntry (q : Req)
  /-- READ_ENTRY (R37). -/
  | readEntry (q : Req)
  /-- TRUNCATE_BANK (R38). -/
  | truncateBank (q : Req)
  /-- CLEAR_BANK (R39). -/
  | clearBank (q : Req)
  /-- COPY_BANK (R41). -/
  | copyBank (q : Req)
  /-- COMMIT_BANK (R43). -/
  | commitBank (q : Req)
  /-- WRITE_CHANNEL_OUTPUT (R85): WRITE_CHANNEL with Object OUTPUT. -/
  | writeChannelOutput (q : Req)
  /-- WRITE_CHANNEL_LEVEL (R84): WRITE_CHANNEL with Object LEVEL. -/
  | writeChannelLevel (q : Req)
  /-- WRITE_CHANNEL_TRIGGER (R84): WRITE_CHANNEL with Object TRIGGER. -/
  | writeChannelTrigger (q : Req)
  /-- READ_CHANNEL (R156). -/
  | readChannel (q : Req)
  /-- WRITE_CURVE (R89). -/
  | writeCurve (q : Req)
  /-- READ_CURVE (R89). -/
  | readCurve (q : Req)
  /-- WRITE_SENSE_LINE (R143): WRITE_SENSE with an Index other than 8. -/
  | writeSenseLine (q : Req)
  /-- WRITE_SENSE_GLOBAL (R143): WRITE_SENSE with Index 8. -/
  | writeSenseGlobal (q : Req)
  /-- READ_SENSE (R144). -/
  | readSense (q : Req)
  /-- SET_OVERRIDE_BLACKOUT (R98): SET_OVERRIDE with Object BLACKOUT. -/
  | setOverrideBlackout (q : Req)
  /-- SET_OVERRIDE_TEST_FULL (R98): SET_OVERRIDE with Object TEST_FULL. -/
  | setOverrideTestFull (q : Req)
  /-- SET_OVERRIDE_PARK (R99): SET_OVERRIDE with Object PARK. -/
  | setOverridePark (q : Req)
  /-- FREEZE (R100). -/
  | freeze (q : Req)
  /-- THAW (R100). -/
  | thaw (q : Req)
  /-- CLEAR_INTERLOCK (R140). -/
  | clearInterlock (q : Req)
  /-- FETCH_EVENT (R161). -/
  | fetchEvent (q : Req)
  /-- READ_FLAGS (R162). -/
  | readFlags (q : Req)
  /-- CLEAR_FLAGS (R162). -/
  | clearFlags (q : Req)
  /-- SET_REPORT_MASK (R163). -/
  | setReportMask (q : Req)
  /-- READ_COUNTERS (R164). -/
  | readCounters (q : Req)
  /-- RESET_NODE_OUTPUTS (R165): RESET_NODE with Object OUTPUTS. -/
  | resetNodeOutputs (q : Req)
  /-- RESET_NODE_TABLES (R165): RESET_NODE with Object TABLES. -/
  | resetNodeTables (q : Req)
  /-- RESET_NODE_EVENTS (R165): RESET_NODE with Object EVENTS. -/
  | resetNodeEvents (q : Req)
  /-- RESET_NODE_SCOPE_NODE (R165): RESET_NODE with Object NODE. -/
  | resetNodeScopeNode (q : Req)
  /-- PWM_CLOCK (R106). -/
  | pwmClock (channel : Fin 16)
  deriving DecidableEq, Repr

end Sys2Proof
end

