-- ==== Sys2Proof/Config.lean ====
section
/-! DEFINITION. What the spec leaves open: the free values of the model. The spec leaves no register
width and no table of the part to an implementation, so nothing else stands here. -/

namespace Sys2Proof.Config

/-- Free value (log 1). Where one step of the part raises two things whose order at the Management Agent the
spec leaves open (R172: BANK_SWITCHED or SWAP_REFUSED against HEARTBEAT at one boundary; R168: LINK_STATE
against the record that the reset applied at the frame end of the same expiry places), the value at the machine's count of such
choices says whether the first named is taken first. Nothing constrains it. -/
opaque firstRaisedFirst : Nat → Bool

end Sys2Proof.Config
end

