-- ==== Sys2Proof/Machine/State.lean ====
section
/-! DEFINITION. The state of the part as plain data, block by block (spec/00, Block diagram), and its value
at power-on. Every item names the rule that gives it to the machine. -/

namespace Sys2Proof.Machine

/-! ## The Link Framer -/

/-- The four kinds of line symbol (R3). -/
inductive Sym where
  | data (b : Byte)
  | marker
  | abort
  | idle
  deriving DecidableEq, Repr

/-- The link states (section 1.3). -/
inductive LinkState where
  | down
  | hunt
  | verify
  | locked
  deriving DecidableEq, Repr

/-- The extent of the frame in progress (R4). -/
inductive Frame where
  /-- No frame: before the first marker, or after a frame with a good header has ended. -/
  | between
  /-- The marker and fewer than eight header bytes have arrived. -/
  | header
  /-- The header was good: `place` is the position of the last symbol that arrived, 8 at the header's last
  byte, and `slots` is the header's Slot Count. -/
  | good (place slots : Nat)
  /-- The header was bad: the frame runs to the next marker. -/
  | bad
  deriving DecidableEq, Repr

/-- The state of the Link Framer (spec/01). -/
structure LinkFramer where
  /-- link state (R7). -/
  state : LinkState
  /-- extent of the frame in progress (R4). -/
  frame : Frame
  /-- header bytes of the frame in progress that have arrived (R5). -/
  header : List Byte
  /-- cell bytes of the frame in progress: those that have arrived, and from the sixteenth on the outgoing
  cell (R19, R147). -/
  cell : List Byte
  /-- the received first frame-check byte (R18). -/
  checkByte : Byte
  /-- CRC-16 over the cell and slots as received (R18). -/
  receivedCheck : BitVec 16
  /-- CRC-16 over the cell and slots as sent (R18). -/
  sentCheck : BitVec 16
  /-- ring position (R20). -/
  position : Byte
  /-- expected frame index (R21). -/
  expected : Byte
  /-- consecutive-bad-header count (R12). -/
  badHeaders : Nat
  /-- held Last Index (R5). -/
  heldLast : Byte
  /-- held header Blackout flag (R23). -/
  heldBlackout : Bool
  /-- frame timeout: stopped, or the base ticks left (R8). -/
  timeout : Option Nat
  /-- reference heartbeat (R24). -/
  reference : Option Byte
  /-- stale count (R24). -/
  staleCount : Nat
  /-- stale stage (R24). -/
  staleStage : Fin 3
  /-- stale fallback cause (R24). -/
  staleCause : Bool
  /-- frame clock (R27). -/
  frameClock : BitVec 32
  /-- link counter: header errors (R28). -/
  headerErrors : BitVec 16
  /-- link counter: frame check errors (R28). -/
  frameCheckErrors : BitVec 16
  /-- link counter: cell check errors (R28). -/
  cellCheckErrors : BitVec 16
  /-- link counter: truncated frames (R28). -/
  truncatedFrames : BitVec 16
  /-- link counter: index slips (R28). -/
  indexSlips : BitVec 16
  /-- the symbols to be sent for those received in the last byte times, oldest first (R14). -/
  delay : List Sym
  /-- an abort marker is the next symbol sent (R17, timeout expiry). -/
  abortNext : Bool
  /-- LINK_OUT: the symbol last sent. -/
  linkOut : Sym
  deriving DecidableEq, Repr

/-! ## The Map Store -/

/-- The two map banks (R29). -/
inductive BankName where
  | a
  | b
  deriving DecidableEq, Repr

/-- The part of a staged raw value that a TAP writes (R30). -/
inductive Part where
  | byte
  | high
  | low
  deriving DecidableEq, Repr

/-- What an INSERT sends, with its Argument where its source takes one (R30). -/
inductive Source where
  | const (value : Byte)
  | nodeStatus
  | senseLevels
  | matchCount
  | captureHi (line : Fin 8)
  | captureLo (line : Fin 8)
  | levelHi (channel : Fin 16)
  | levelLo (channel : Fin 16)
  deriving DecidableEq, Repr

/-- The Action of a map entry with the fields that belong to it (R30). -/
inductive EntryAction where
  | tap (channel : Fin 16) (part : Part)
  | insert (source : Source)
  deriving DecidableEq, Repr

/-- A map entry: its Slot, 0 to 511, and its Action (R30). The types hold the ranges of R30. -/
structure Entry where
  slot : BitVec 9
  action : EntryAction
  deriving DecidableEq, Repr

/-- The bank states (R32). -/
inductive BankState where
  | empty
  | editing
  | copying
  | checking
  | ready
  deriving DecidableEq, Repr

/-- A bank: its entries in index order, and its state (R29). -/
structure Bank where
  entries : List Entry
  state : BankState
  deriving DecidableEq, Repr

/-- The kinds of table operation (R40). -/
inductive OpKind where
  | copy
  | commit
  deriving DecidableEq, Repr

/-- The faults a COMMIT walk finds (R44). -/
inductive CommitFault where
  | slotOrder
  | doubleInsert
  deriving DecidableEq, Repr

/-- A table operation in flight (R40). -/
structure TableOp where
  kind : OpKind
  target : BankName
  /-- index of the next entry to be copied or checked. -/
  progress : Nat
  /-- the fault at which a COMMIT walk has stopped, at index `progress` (R44). -/
  found : Option CommitFault
  deriving DecidableEq, Repr

/-! ### What an event tells, which the Map Store holds until it is placed -/

/-- The scopes of RESET_NODE (R165). -/
inductive Scope where
  | outputs
  | tables
  | events
  | node
  deriving DecidableEq, Repr

/-- An event as a block raises it, with its particulars (R170). -/
inductive Event where
  /-- NODE_START: cause POWER_ON, or cause RESET with the scope. -/
  | nodeStart (scope : Option Scope)
  | linkState (old new : LinkState)
  | positionChanged (old new : Byte)
  | indexSlip (expected received : Byte)
  | bankSwitched (bank : BankName) (count : Nat)
  | swapRefused (bank : BankName) (state : BankState)
  | tableOpDone (bank : BankName) (kind : OpKind) (result : Option CommitFault) (value : Nat)
  | heartbeat (stage : Fin 3) (count : Nat)
  | fallback (entry linkCause staleCause : Bool)
  | senseMatch (levels : Byte)
  | interlock (set : Bool)
  | captureOverrun (line : Fin 8) (timestamp : BitVec 15)
  deriving DecidableEq, Repr

/-- The state of the Map Store (spec/02). -/
structure MapStore where
  bankA : Bank
  bankB : Bank
  /-- active-bank designation (R33). -/
  active : BankName
  /-- table operation unit: idle, or the operation in flight (R40). -/
  op : Option TableOp
  /-- Misaligned (R50). -/
  misaligned : Bool
  /-- TABLE_OP_DONE of a completed operation whose record has still to be placed (R40, R178; log 17). -/
  owed : Option Event
  deriving DecidableEq, Repr

/-! ## The Slot Engine -/

/-- One channel's record of a staging buffer (R70). -/
structure Staged where
  raw : Level
  fresh : Bool
  deriving DecidableEq, Repr

/-- The states of a staging buffer (R70). -/
inductive BufferState where
  | free
  | filling
  | pending
  deriving DecidableEq, Repr

/-- A staging buffer (R70). -/
structure Buffer where
  state : BufferState
  records : Vector Staged 16
  deriving DecidableEq, Repr

/-- The state of the Slot Engine (spec/03). -/
structure SlotEngine where
  x : Buffer
  y : Buffer
  /-- the frame in progress is an acting frame (R56). -/
  acting : Bool
  /-- place in the active bank's entry list (R58). -/
  place : Nat
  /-- demanded levels at the frame's start (R58). -/
  snapshot : Vector Level 16
  deriving DecidableEq, Repr

/-! ## The Level Engine -/

/-- Channel modes (section 4.2). -/
inductive Mode where
  | dim
  | strobe
  | switch
  | pulse
  deriving DecidableEq, Repr

/-- Clock Divider: 1, 4, 16 or 64 (section 4.2). -/
inductive Divider where
  | by1
  | by4
  | by16
  | by64
  deriving DecidableEq, Repr

/-- Where a channel's target came from (R83). -/
inductive TargetSource where
  | tap
  | fallback
  | reset
  deriving DecidableEq, Repr

/-- A channel record (section 4.2, R83). -/
structure Channel where
  enabled : Bool
  mode : Mode
  divider : Divider
  period : Level
  phase : Level
  inverted : Bool
  curve : Fin 4
  fadeRate : Level
  fallbackLevel : Level
  exempt : Bool
  onThreshold : Level
  offThreshold : Level
  pulseWidth : Byte
  retrigger : Bool
  raw : Level
  target : Level
  current : Level
  targetSource : TargetSource
  demanded : Level
  deriving DecidableEq, Repr

/-- The Park setting of a channel (R99). -/
structure Park where
  active : Bool
  level : Level
  deriving DecidableEq, Repr

/-- The timebase (R79, R80). -/
structure Timebase where
  /-- capture clock (R79). -/
  captureClock : BitVec 15
  /-- the step of the 25-step cycle in progress, counted from 0 (R80). -/
  step : Fin 25
  /-- base ticks of that step that have gone (R80). -/
  ticks : Nat
  /-- the model's own: a base tick has ended a step and the step tick has not been taken yet. -/
  stepDue : Bool
  /-- the model's own: the step tick of the coming base tick has been taken ahead of it (R90). -/
  stepTaken : Bool
  deriving DecidableEq, Repr

/-- The state of the Level Engine (spec/04). -/
structure LevelEngine where
  channels : Vector Channel 16
  /-- curves 1 to 3, seventeen points each (R87). -/
  curves : Vector (Vector Level 17) 3
  parks : Vector Park 16
  /-- management blackout (R98). -/
  blackout : Bool
  /-- test full (R98). -/
  testFull : Bool
  /-- freeze request (R100). -/
  freezeRequest : Bool
  /-- Frozen (R100). -/
  frozen : Bool
  /-- fallback state (R92). -/
  fallback : Bool
  /-- blackout in force (R96). -/
  blackoutInForce : Bool
  deriving DecidableEq, Repr

/-! ## The Output Generators -/

/-- The state of one output generator (section 5.1). -/
structure Generator where
  /-- Line Level is ACTIVE. -/
  lineActive : Bool
  counter : Nat
  runningPeriod : Level
  pendingPeriod : Option Level
  appliedLevel : Level
  activeDuty : Nat
  pendingDuty : Option Level
  /-- Strobe State is CYCLE. -/
  strobeCycle : Bool
  strobeCount : Nat
  flashRemaining : Nat
  pulseArmed : Bool
  pulseRemaining : Nat
  deriving DecidableEq, Repr

/-! ## The Sense Unit -/

/-- The conditions of a sense line (section 6.2). -/
inductive Condition where
  | ignore
  | anyEdge
  | low
  | high
  | fall
  | rise
  deriving DecidableEq, Repr

/-- Capture Edge (section 6.1). -/
inductive CaptureEdge where
  | rise
  | fall
  | both
  deriving DecidableEq, Repr

/-- Match Mode (section 6.1). -/
inductive MatchMode where
  | or
  | and
  deriving DecidableEq, Repr

/-- One sense line's items (section 6.1). -/
structure SenseLine where
  /-- Filtered Level is HIGH. -/
  high : Bool
  /-- Run Count. -/
  run : Fin 4
  /-- Filter is ON. -/
  filterOn : Bool
  condition : Condition
  captureEnable : Bool
  captureEdge : CaptureEdge
  timestamp : BitVec 15
  fresh : Bool
  overrun : Bool
  deriving DecidableEq, Repr

/-- The state of the Sense Unit (spec/06), and the pins SNS0 to SNS7 as the part last saw them. -/
structure SenseUnit where
  pins : Byte
  lines : Vector SenseLine 8
  matchMode : MatchMode
  matchState : Bool
  matchCount : Byte
  armed : Bool
  active : Bool
  deriving DecidableEq, Repr

/-! ## The Management Agent -/

/-- Loss policies (R93). -/
inductive LossPolicy where
  | hold
  | fallback
  | dark
  deriving DecidableEq, Repr

/-- The node parameters (R154). -/
structure NodeParams where
  lossPolicy : LossPolicy
  frameTimeout : Byte
  staleWarn : Byte
  staleLimit : Byte
  /-- mode is PASSIVE. -/
  passive : Bool
  deriving DecidableEq, Repr

/-- The event kinds, in the order of their codes (R170, R186). -/
inductive EventKind where
  | nodeStart
  | linkState
  | positionChanged
  | indexSlip
  | bankSwitched
  | swapRefused
  | tableOpDone
  | heartbeat
  | fallback
  | senseMatch
  | interlock
  | captureOverrun
  deriving DecidableEq, Repr

/-- The Subject of an event record (R169). -/
inductive Subject where
  | none
  | bank (name : BankName)
  | line (n : Fin 8)
  deriving DecidableEq, Repr

/-- An event record (R169). -/
structure EventRecord where
  kind : EventKind
  subject : Subject
  stamp : BitVec 16
  detail : BitVec 16
  deriving DecidableEq, Repr

/-- The state of the Management Agent (spec/07, spec/08). -/
structure Agent where
  params : NodeParams
  /-- reset-in-progress scope (R165). -/
  resetScope : Option Scope
  /-- event queue, oldest first (R172). -/
  queue : List EventRecord
  /-- event flags: bit n for the kind with code n, bit 12 QUEUE_LOST, bit 13 BAD_BROADCAST (R175, R184). -/
  flags : BitVec 14
  /-- report mask: bit n admits the kind with code n (R176, R184). -/
  mask : BitVec 12
  deriving DecidableEq, Repr

/-! ## The machine -/

/-- The state of the part, and the commands waiting for it. -/
structure State where
  link : LinkFramer
  map : MapStore
  slot : SlotEngine
  time : Timebase
  level : LevelEngine
  generators : Vector Generator 16
  sense : SenseUnit
  agent : Agent
  /-- the model's own: how many free choices of order have been made (Config.firstRaisedFirst). -/
  choices : Nat
  /-- the commands waiting, first in, first out. -/
  pending : List Instr
  deriving DecidableEq, Repr

/-- Why the part stops with a fault. The spec stops the part nowhere, so there is no reason: no command
raises one, which is neither safe nor unsafe. -/
inductive Fault : Type
  deriving DecidableEq, Repr

/-- Why a command is refused. -/
inductive Refusal where
  /-- Raised by an arm of exec whose command has no meaning yet; safe, since nothing is claimed of it. No arm
  of this model raises it. -/
  | notModelled (mnemonic : String)
  deriving DecidableEq, Repr

/-! ## Power-on values -/

/-- The Link Framer after power-on (the table at the end of spec/01; the items of the frame in progress have
no value in the spec before a frame writes them: log 3). -/
def LinkFramer.powerOn : LinkFramer where
  state := .down
  frame := .between
  header := []
  cell := []
  checkByte := 0
  receivedCheck := 0xFFFF
  sentCheck := 0xFFFF
  position := 0
  expected := 0
  badHeaders := 0
  heldLast := 0
  heldBlackout := false
  timeout := none
  reference := none
  staleCount := 0
  staleStage := 0
  staleCause := false
  frameClock := 0
  headerErrors := 0
  frameCheckErrors := 0
  cellCheckErrors := 0
  truncatedFrames := 0
  indexSlips := 0
  delay := []
  abortNext := false
  linkOut := .idle

/-- An EMPTY bank (R29). -/
def Bank.emptied : Bank := ⟨[], .empty⟩

/-- The Map Store after power-on (R54) and after a reset with scope TABLES or NODE (R53). -/
def MapStore.powerOn : MapStore where
  bankA := .emptied
  bankB := .emptied
  active := .a
  op := none
  misaligned := false
  owed := none

/-- A FREE buffer (R70); its records are read by no block (log 3). -/
def Buffer.powerOn : Buffer := ⟨.free, Vector.replicate 16 ⟨0, false⟩⟩

/-- The Slot Engine after power-on (R70; place and snapshot belong to an acting frame alone: log 3). -/
def SlotEngine.powerOn : SlotEngine where
  x := .powerOn
  y := .powerOn
  acting := false
  place := 0
  snapshot := Vector.replicate 16 0

/-- The timebase after power-on (R79, R80). -/
def Timebase.powerOn : Timebase where
  captureClock := 0
  step := 0
  ticks := 0
  stepDue := false
  stepTaken := false

/-- A channel record with its defaults and runtime values at reset (R82, R83). -/
def Channel.default : Channel where
  enabled := false
  mode := .dim
  divider := .by1
  period := 4096
  phase := 0
  inverted := false
  curve := 0
  fadeRate := 0
  fallbackLevel := 0
  exempt := false
  onThreshold := 32768
  offThreshold := 16384
  pulseWidth := 10
  retrigger := false
  raw := 0
  target := 0
  current := 0
  targetSource := .reset
  demanded := 0

/-- The default points of a curve: k × 4096, and 65535 at point 16 (R87). -/
def defaultPoints : Vector Level 17 :=
  Vector.ofFn fun k => if k.val = 16 then 65535 else BitVec.ofNat 16 (k.val * 4096)

/-- Curves 1 to 3 at their default points (R87). -/
def defaultCurves : Vector (Vector Level 17) 3 := Vector.replicate 3 defaultPoints

/-- The Level Engine after power-on (R103). -/
def LevelEngine.powerOn : LevelEngine where
  channels := Vector.replicate 16 .default
  curves := defaultCurves
  parks := Vector.replicate 16 ⟨false, 0⟩
  blackout := false
  testFull := false
  freezeRequest := false
  frozen := false
  fallback := false
  blackoutInForce := false

/-- A generator after power-on (the table of section 5.1, R104). -/
def Generator.powerOn : Generator where
  lineActive := false
  counter := 0
  runningPeriod := 4096
  pendingPeriod := none
  appliedLevel := 0
  activeDuty := 0
  pendingDuty := none
  strobeCycle := false
  strobeCount := 0
  flashRemaining := 0
  pulseArmed := false
  pulseRemaining := 0

/-- A sense line at a reset, its Filtered Level taken from the line's level (R130, R145). -/
def SenseLine.atReset (high : Bool) : SenseLine where
  high := high
  run := 0
  filterOn := true
  condition := .ignore
  captureEnable := false
  captureEdge := .rise
  timestamp := 0
  fresh := false
  overrun := false

/-- The Sense Unit at a reset with the lines at the levels of `sns` (R145). -/
def SenseUnit.atReset (sns : Byte) : SenseUnit where
  pins := sns
  lines := Vector.ofFn fun i => .atReset (sns.getLsbD i.val)
  matchMode := .or
  matchState := false
  matchCount := 0
  armed := false
  active := false

/-- The node parameters after power-on and after a reset with scope NODE (R154). -/
def NodeParams.default : NodeParams where
  lossPolicy := .fallback
  frameTimeout := 32
  staleWarn := 4
  staleLimit := 16
  passive := false

/-- The Management Agent after power-on: the queue holds the NODE_START record with cause POWER_ON and Stamp
0, and the NODE_START flag alone is set (R177, R169, R186). -/
def Agent.powerOn : Agent where
  params := .default
  resetScope := none
  queue := [⟨.nodeStart, .none, 0, 0⟩]
  flags := 1
  mask := 0xFFF

/-- The part after power-on with the sense lines at the levels of `sns` (R2). -/
def State.powerOn (sns : Byte) : State where
  link := .powerOn
  map := .powerOn
  slot := .powerOn
  time := .powerOn
  level := .powerOn
  generators := Vector.replicate 16 .powerOn
  sense := .atReset sns
  agent := .powerOn
  choices := 0
  pending := []

/-- The machine right after reset, with the sense lines LOW (log 2) and no command waiting. -/
def State.reset : State := .powerOn 0

end Sys2Proof.Machine
end

