-- ==== Sys2Proof/Machine/Flags.lean ====
section
/-! DEFINITION. Events, event flags and the report mask (spec/08, sections 8.1 to 8.3), and the node status
byte (section 8.5, R187). -/

namespace Sys2Proof.Machine

/-! ## Codes that records and replies carry (section 9.4, R186) -/

/-- The code of a bank: 0 A, 1 B. -/
def BankName.code : BankName → Byte
  | .a => 0
  | .b => 1

/-- The code of a bank state. -/
def BankState.code : BankState → Byte
  | .empty => 0
  | .editing => 1
  | .copying => 2
  | .checking => 3
  | .ready => 4

/-- The code of a link state. -/
def LinkState.code : LinkState → Byte
  | .down => 0
  | .hunt => 1
  | .verify => 2
  | .locked => 3

/-- The code of a reset scope. -/
def Scope.code : Scope → Byte
  | .outputs => 0
  | .tables => 1
  | .events => 2
  | .node => 3

/-- The code of an event kind: its bit in the flags and the mask (R186). -/
def EventKind.code : EventKind → Nat
  | .nodeStart => 0
  | .linkState => 1
  | .positionChanged => 2
  | .indexSlip => 3
  | .bankSwitched => 4
  | .swapRefused => 5
  | .tableOpDone => 6
  | .heartbeat => 7
  | .fallback => 8
  | .senseMatch => 9
  | .interlock => 10
  | .captureOverrun => 11

/-- One bit of a byte or word: 1 for true. -/
def bit (b : Bool) : BitVec 1 := BitVec.ofBool b

/-- The result code of a table operation in bits 6 to 4: 0 OK, 2 SLOT_ORDER, 3 DOUBLE_INSERT (R186). -/
def resultCode : Option CommitFault → BitVec 3
  | none => 0
  | some .slotOrder => 2
  | some .doubleInsert => 3

/-! ## Events -/

/-- The kind of an event (R170). -/
def Event.kind : Event → EventKind
  | .nodeStart _ => .nodeStart
  | .linkState _ _ => .linkState
  | .positionChanged _ _ => .positionChanged
  | .indexSlip _ _ => .indexSlip
  | .bankSwitched _ _ => .bankSwitched
  | .swapRefused _ _ => .swapRefused
  | .tableOpDone _ _ _ _ => .tableOpDone
  | .heartbeat _ _ => .heartbeat
  | .fallback _ _ _ => .fallback
  | .senseMatch _ => .senseMatch
  | .interlock _ => .interlock
  | .captureOverrun _ _ => .captureOverrun

/-- The Subject of an event (R170). -/
def Event.subject : Event → Subject
  | .bankSwitched name _ => .bank name
  | .swapRefused name _ => .bank name
  | .tableOpDone name _ _ _ => .bank name
  | .captureOverrun n _ => .line n
  | .nodeStart _ => .none
  | .linkState _ _ => .none
  | .positionChanged _ _ => .none
  | .indexSlip _ _ => .none
  | .heartbeat _ _ => .none
  | .fallback _ _ _ => .none
  | .senseMatch _ => .none
  | .interlock _ => .none

/-- The Detail of an event, high byte and low byte (R186). Bits that R186 gives no field are 0, the model's choice: bits
3 to 0 of the high byte of TABLE_OP_DONE, bits 7 to 2 of the low byte of FALLBACK (log 12). -/
def Event.detail : Event → BitVec 16
  | .nodeStart none => 0
  | .nodeStart (some scope) => (1 : Byte) ++ scope.code
  | .linkState old new => old.code ++ new.code
  | .positionChanged old new => old ++ new
  | .indexSlip expected received => expected ++ received
  | .bankSwitched _ count => (0 : Byte) ++ BitVec.ofNat 8 count
  | .swapRefused _ state => (0 : Byte) ++ state.code
  | .tableOpDone _ kind result value =>
      (bit (kind == .commit) ++ resultCode result ++ (0 : BitVec 4)) ++ BitVec.ofNat 8 value
  | .heartbeat stage count => BitVec.ofNat 8 stage.val ++ BitVec.ofNat 8 count
  | .fallback entry linkCause staleCause =>
      BitVec.setWidth 8 (bit entry) ++ ((0 : BitVec 6) ++ bit staleCause ++ bit linkCause)
  | .senseMatch levels => (0 : Byte) ++ levels
  | .interlock set => (0 : Byte) ++ BitVec.setWidth 8 (bit set)
  | .captureOverrun _ timestamp => (0 : BitVec 1) ++ timestamp

/-- The Subject byte of FETCH_EVENT: the class in bits 7 and 6, the value in bits 2 to 0 (R186). -/
def Subject.byte : Subject → Byte
  | .none => 0
  | .bank name => 0x40 ||| name.code
  | .line n => 0x80 ||| BitVec.ofNat 8 n.val

/-- The most records the event queue holds (R172). -/
def queueRoom : Nat := 32

/-- The bit of an event kind in the flags. -/
def EventKind.flag (k : EventKind) : BitVec 14 := 1 <<< k.code

/-- The QUEUE_LOST flag (R184). -/
def queueLostFlag : BitVec 14 := 0x1000

/-- The BAD_BROADCAST flag (R184). -/
def badBroadcastFlag : BitVec 14 := 0x2000

/-- The Agent handles an event of the given kind, Subject and Detail, with the Stamp taken from the frame
clock: the kind's flag is set; an admitted event is placed at the queue's tail, or dropped with QUEUE_LOST set
when the queue holds 32 records (R171, R173). -/
def Agent.take (ag : Agent) (e : Event) (stamp : BitVec 16) : Agent :=
  let flagged := { ag with flags := ag.flags ||| e.kind.flag }
  if ag.mask.getLsbD e.kind.code then
    if ag.queue.length < queueRoom then
      { flagged with queue := ag.queue ++ [⟨e.kind, e.subject, stamp, e.detail⟩] }
    else
      { flagged with flags := flagged.flags ||| queueLostFlag }
  else flagged

/-- A block raises an event: the Stamp is the low 16 bits of the frame clock as it stands (R169, R171). -/
def State.raise (s : State) (e : Event) : State :=
  { s with agent := s.agent.take e (s.link.frameClock.setWidth 16) }

/-- Events raised one after the other, in the order of the list (R172). -/
def State.raiseAll (s : State) (es : List Event) : State := es.foldl State.raise s

/-- An event or none. -/
def State.raise? (s : State) (e : Option Event) : State := s.raiseAll e.toList

/-- The BAD_BROADCAST flag is set; it leaves no record (R148, R175). -/
def State.setBadBroadcast (s : State) : State :=
  { s with agent := { s.agent with flags := s.agent.flags ||| badBroadcastFlag } }

/-! ## The node status byte -/

/-- The node status byte, composed from the state of the blocks that own its conditions (R178, R187). -/
def State.statusByte (s : State) : Byte :=
  bit (!s.agent.queue.isEmpty) ++ bit s.level.fallback ++ bit s.level.blackoutInForce
    ++ bit s.sense.active ++ bit s.level.frozen ++ bit (s.map.active == .b)
    ++ bit s.map.misaligned ++ bit s.map.op.isSome

end Sys2Proof.Machine
end

