-- ==== Sys2Proof/Machine/Ops.lean ====
section
/-! DEFINITION. Named operations that several steps share: bytes and checks (spec/09), the delay line of the
downstream port (R14), banks, staging buffers (R71 to R77), and each block's part of a node reset. -/

namespace Sys2Proof.Machine

/-! ## Bytes, most significant first (R180) -/

/-- The high byte of a 16-bit value. -/
def hiByte (w : BitVec 16) : Byte := w.extractLsb' 8 8

/-- The low byte of a 16-bit value. -/
def loByte (w : BitVec 16) : Byte := w.extractLsb' 0 8

/-- The 16-bit value of a high and a low byte (R180). -/
def word16 (hi lo : Byte) : BitVec 16 := hi ++ lo

/-! ## Checks (section 9.3, R183) -/

/-- One message bit through a check register: shift left by one place, and XOR the polynomial in when the bit
shifted out, XORed with the message bit, is 1. -/
def crcBit {w : Nat} (poly : BitVec w) (register : BitVec w) (message : Bool) : BitVec w :=
  if register.msb ^^ message then (register <<< 1) ^^^ poly else register <<< 1

/-- One byte through a check register, from bit 7 to bit 0. -/
def crcByte {w : Nat} (poly : BitVec w) (register : BitVec w) (b : Byte) : BitVec w :=
  [7, 6, 5, 4, 3, 2, 1, 0].foldl (fun r i => crcBit poly r (b.getLsbD i)) register

/-- The CRC-8 of the Header Check and the cell check over a list of bytes. -/
def crc8 (bytes : List Byte) : Byte := bytes.foldl (crcByte 0x07) 0xFF

/-- One byte through the register of the frame check. -/
def crc16Byte (register : BitVec 16) (b : Byte) : BitVec 16 := crcByte 0x1021 register b

/-- The CRC-16 of the frame check over a list of bytes. -/
def crc16 (bytes : List Byte) : BitVec 16 := bytes.foldl crc16Byte 0xFFFF

/-! ## Counters -/

/-- A link counter after one more cause: it stops at 65535 (R28). -/
def countUp (counter : BitVec 16) : BitVec 16 :=
  if counter = 0xFFFF then counter else counter + 1

/-! ## The delay line (R14) -/

/-- Byte times from a symbol's arrival to its sending (R14). -/
def delayByteTimes : Nat := 20

/-- The last symbols of a line replaced by others, as many as the line still holds. -/
def replaceLast (line new : List Sym) : List Sym :=
  line.take (line.length - new.length) ++ new.drop (new.length - line.length)

/-- A symbol has arrived, and `sym` will leave in its place (R14). -/
def LinkFramer.put (l : LinkFramer) (sym : Sym) : LinkFramer := { l with delay := l.delay ++ [sym] }

/-- The symbols that will leave for the last ones received are the data bytes `bytes` (R14). -/
def LinkFramer.substitute (l : LinkFramer) (bytes : List Byte) : LinkFramer :=
  { l with delay := replaceLast l.delay (bytes.map .data) }

/-- The outgoing cell is `bytes`: it leaves in place of the cell received, and the frame check is formed over
it (R147, R18). -/
def LinkFramer.setCell (l : LinkFramer) (bytes : List Byte) : LinkFramer :=
  { (l.substitute bytes) with cell := bytes, sentCheck := crc16 bytes }

/-- A frame is in flight: LOCKED, and its header was good (R17). -/
def LinkFramer.inFlight (l : LinkFramer) : Bool :=
  match l.state, l.frame with
  | .locked, .good _ _ => true
  | _, _ => false

/-- The link fallback cause: true in DOWN, HUNT and VERIFY, false in LOCKED (section 1.3, R13). -/
def LinkFramer.fallbackCause (l : LinkFramer) : Bool := l.state != .locked

/-- The Frame Timeout in base ticks: the stored value 0 means 256 (R8). -/
def timeoutTicks (stored : Byte) : Nat := if stored = 0 then 256 else stored.toNat

/-! ## Banks -/

/-- The most entries a bank holds (R29). -/
def bankRoom : Nat := 128

/-- The other bank. -/
def BankName.other : BankName → BankName
  | .a => .b
  | .b => .a

/-- The bank of a name. -/
def MapStore.bank (m : MapStore) : BankName → Bank
  | .a => m.bankA
  | .b => m.bankB

/-- The bank of a name written whole. -/
def MapStore.setBank (m : MapStore) (name : BankName) (bank : Bank) : MapStore :=
  match name with
  | .a => { m with bankA := bank }
  | .b => { m with bankB := bank }

/-- A bank's entry count (R29). -/
def Bank.count (bank : Bank) : Nat := bank.entries.length

/-! ## Staging buffers -/

/-- A buffer made FREE; its records are read by no block then (R70). -/
def Buffer.freed (b : Buffer) : Buffer := { b with state := .free }

/-- The Slot Engine with both buffers FREE (R77, R78). -/
def SlotEngine.freeBoth (e : SlotEngine) : SlotEngine := { e with x := e.x.freed, y := e.y.freed }

/-- A FILLING buffer made FREE, any other left as it is (R73). -/
def Buffer.dropFilling (b : Buffer) : Buffer := if b.state = .filling then b.freed else b

/-- A PENDING buffer made FREE, any other left as it is (R72, R74). -/
def Buffer.dropPending (b : Buffer) : Buffer := if b.state = .pending then b.freed else b

/-- The end of an acting frame with an incorrect check, or its truncation (R73). -/
def SlotEngine.endBad (e : SlotEngine) : SlotEngine :=
  { e with x := e.x.dropFilling, y := e.y.dropFilling, acting := false }

/-- The end of a frame with a correct check: the FILLING buffer becomes PENDING, and an older PENDING buffer
becomes FREE; without a FILLING buffer neither changes (R72, R57). -/
def SlotEngine.endGood (e : SlotEngine) : SlotEngine :=
  if e.x.state = .filling then
    { e with x := { e.x with state := .pending }, y := e.y.dropPending, acting := false }
  else if e.y.state = .filling then
    { e with x := e.x.dropPending, y := { e.y with state := .pending }, acting := false }
  else { e with acting := false }

/-- The records of the PENDING buffer, if there is one (R74). -/
def SlotEngine.pendingRecords (e : SlotEngine) : Option (Vector Staged 16) :=
  if e.x.state = .pending then some e.x.records
  else if e.y.state = .pending then some e.y.records
  else none

/-- The Slot Engine after a step tick has taken the PENDING buffer (R74). -/
def SlotEngine.takePending (e : SlotEngine) : SlotEngine :=
  { e with x := e.x.dropPending, y := e.y.dropPending }

/-! ## Output lines -/

/-- The level of output line OUT of a channel: high when Line Level and Polarity together make it so (R105). -/
def State.outHigh (s : State) (channel : Fin 16) : Bool :=
  s.generators[channel].lineActive ^^ s.level.channels[channel].inverted

/-! ## Each block's part of a node reset (R166) -/

/-- The five link counters cleared (R28). -/
def LinkFramer.clearCounters (l : LinkFramer) : LinkFramer :=
  { l with headerErrors := 0, frameCheckErrors := 0, cellCheckErrors := 0, truncatedFrames := 0,
           indexSlips := 0 }

/-- The heartbeat watch with no reference, count 0, stage 0 and no cause (R11, R26). -/
def LinkFramer.restartWatch (l : LinkFramer) : LinkFramer :=
  { l with reference := none, staleCount := 0, staleStage := 0, staleCause := false }

/-- The Link Framer's part of a reset (R23, R26, R28). -/
def LinkFramer.nodeReset (l : LinkFramer) : Scope → LinkFramer
  | .outputs => l
  | .tables => l
  | .events => l.clearCounters
  | .node => { l.clearCounters.restartWatch with heldBlackout := false }

/-- The Map Store's part of a reset (R53). -/
def MapStore.nodeReset (m : MapStore) : Scope → MapStore
  | .outputs => m
  | .tables => .powerOn
  | .events => m
  | .node => .powerOn

/-- The Slot Engine's part of a reset (R78). -/
def SlotEngine.nodeReset (e : SlotEngine) : Scope → SlotEngine
  | .outputs => e.freeBoth
  | .tables => e
  | .events => e
  | .node => e.freeBoth

/-- The Level Engine's part of a reset with scope OUTPUTS: channel table, runtime levels, parks, test full,
management blackout and freeze (R102). The fallback state and blackout in force are kept. Frozen clears here, at the
reset, as R100 and R102 say; R178 and R179 have the condition change at a step tick: the model's choice (log 18). -/
def LevelEngine.resetOutputs (l : LevelEngine) : LevelEngine :=
  { l with channels := Vector.replicate 16 .default, parks := Vector.replicate 16 ⟨false, 0⟩,
           blackout := false, testFull := false, freezeRequest := false, frozen := false }

/-- The Level Engine's part of a reset (R87, R102); the loss policy is the Agent's parameter. -/
def LevelEngine.nodeReset (l : LevelEngine) : Scope → LevelEngine
  | .outputs => l.resetOutputs
  | .tables => { l with curves := defaultCurves }
  | .events => l
  | .node => { l.resetOutputs with curves := defaultCurves }

/-- The generators' part of a reset: each ends as a disable does and then takes its power-on items (R104,
R124). -/
def generatorsReset (gens : Vector Generator 16) : Scope → Vector Generator 16
  | .outputs => Vector.replicate 16 .powerOn
  | .tables => gens
  | .events => gens
  | .node => Vector.replicate 16 .powerOn

/-- The Sense Unit's part of a reset (R145): the lines stand at the levels of its pins. -/
def SenseUnit.nodeReset (u : SenseUnit) : Scope → SenseUnit
  | .outputs => u
  | .tables => u
  | .events => u
  | .node => .atReset u.pins

/-- The queue emptied, every flag cleared and the mask set to admit every kind (R167). -/
def Agent.clearEvents (ag : Agent) : Agent := { ag with queue := [], flags := 0, mask := 0xFFF }

/-- The Management Agent's part of a reset, but for NODE_START (R167). -/
def Agent.nodeReset (ag : Agent) : Scope → Agent
  | .outputs => ag
  | .tables => ag
  | .events => ag.clearEvents
  | .node => { ag.clearEvents with params := .default }

/-- The event placed at a reset: NODE_START with cause RESET for scopes EVENTS and NODE (R167); for scope TABLES the
TABLE_OP_DONE of an operation that had completed before it, where it is still owed, since such a completion takes place
in full (R53; log 17). Scope NODE empties the queue of that record, so it is not placed. -/
def State.raisedByReset (s : State) : Scope → Option Event
  | .outputs => none
  | .tables => s.map.owed
  | .events => some (.nodeStart (some .events))
  | .node => some (.nodeStart (some .node))

/-- A reset with the given scope applied in every block at once (R166). -/
def State.applyReset (s : State) (scope : Scope) : State :=
  { s with link := s.link.nodeReset scope, map := s.map.nodeReset scope,
           slot := s.slot.nodeReset scope, level := s.level.nodeReset scope,
           generators := generatorsReset s.generators scope, sense := s.sense.nodeReset scope,
           agent := { s.agent.nodeReset scope with resetScope := none } }.raise? (s.raisedByReset scope)

/-- The end of a frame: a pending reset is applied, after the frame's own end (R166). -/
def State.endFrame (s : State) : State :=
  match s.agent.resetScope with
  | none => s
  | some scope => s.applyReset scope

/-! ## Power-on -/

/-- Every item of state at its power-on value, with the lines at the levels of `sns`; the commands waiting
and the count of free choices are the model's own and stay (R1, R2). -/
def State.restart (s : State) (sns : Byte) : State :=
  { State.powerOn sns with choices := s.choices, pending := s.pending }

/-- The sense lines stand at the levels of `sns`. -/
def State.setPins (s : State) (sns : Byte) : State :=
  { s with sense := { s.sense with pins := sns } }

end Sys2Proof.Machine
end

