-- ==== Sys2Proof/Machine/Operands.lean ====
section
/-! DEFINITION. The fields of headers, requests and replies: header bits (section 9.1), request codes,
statuses, Objects and options (sections 9.2 and 9.4), and the place of each field in the Arguments (R184,
R185). -/

namespace Sys2Proof.Machine

/-! ## The header (section 9.1) -/

/-- The header fields the part reads (R181). -/
structure Header where
  bank : BankName
  blackout : Bool
  frameIndex : Byte
  lastIndex : Byte
  heartbeat : Byte
  hopCount : Byte
  slotCount : Nat
  deriving DecidableEq, Repr

/-- The Slot Count of header bytes 6 and 7 (section 9.1). -/
def slotCountOf (b6 b7 : Byte) : Nat := (b6.extractLsb' 0 2 ++ b7).toNat

/-- The header of eight bytes when it is good: Header Check, Version 1, Frame Index not above Last Index, Slot
Count 16 to 512 (R5, R181). None when it is bad. -/
def goodHeader : List Byte → Option Header
  | [b1, b2, b3, b4, b5, b6, b7, b8] =>
    if b8 = crc8 [b1, b2, b3, b4, b5, b6, b7] ∧ b1.extractLsb' 4 4 = 1 ∧ b2 ≤ b3
        ∧ 16 ≤ slotCountOf b6 b7 ∧ slotCountOf b6 b7 ≤ 512 then
      some { bank := if b1.getLsbD 3 then .b else .a, blackout := b1.getLsbD 2, frameIndex := b2,
             lastIndex := b3, heartbeat := b4, hopCount := b5, slotCount := slotCountOf b6 b7 }
    else none
  | _ => none

/-- A good header as it is sent: Hop Count plus 1 and the Header Check over the new header, or unchanged from
Hop Count 250 up (R15). -/
def regenerated : List Byte → List Byte
  | [b1, b2, b3, b4, b5, b6, b7, b8] =>
    if b5.toNat < 250 then
      [b1, b2, b3, b4, b5 + 1, b6, b7, crc8 [b1, b2, b3, b4, b5 + 1, b6, b7]]
    else [b1, b2, b3, b4, b5, b6, b7, b8]
  | bytes => bytes

/-- The position a received Hop Count gives (R20). -/
def positionOf (hopCount : Byte) : Byte := if hopCount.toNat < 250 then hopCount + 1 else 0

/-- The frame index expected after a header (R21). -/
def nextIndex (frameIndex lastIndex : Byte) : Byte :=
  if frameIndex < lastIndex then frameIndex + 1 else 0

/-! ## Requests and replies (section 9.2) -/

/-- The reply statuses (section 9.2). -/
inductive Status where
  | ok
  | accepted
  | busy
  | locked
  | range
  | state
  | full
  | unknown
  | empty
  deriving DecidableEq, Repr

/-- The code of a status (section 9.2). -/
def Status.code : Status → Byte
  | .ok => 0
  | .accepted => 1
  | .busy => 2
  | .locked => 3
  | .range => 4
  | .state => 5
  | .full => 6
  | .unknown => 7
  | .empty => 8

/-- The request codes (section 9.4). -/
inductive RequestCode where
  | readIdentity
  | readStatus
  | setNode
  | readNode
  | writeEntry
  | readEntry
  | truncateBank
  | clearBank
  | copyBank
  | commitBank
  | writeChannel
  | readChannel
  | writeCurve
  | readCurve
  | writeSense
  | readSense
  | setOverride
  | freeze
  | thaw
  | clearInterlock
  | fetchEvent
  | readFlags
  | clearFlags
  | setReportMask
  | readCounters
  | resetNode
  deriving DecidableEq, Repr

/-- The Code byte of a request (section 9.4). -/
def RequestCode.byte : RequestCode → Byte
  | .readIdentity => 0x01
  | .readStatus => 0x02
  | .setNode => 0x03
  | .readNode => 0x04
  | .writeEntry => 0x10
  | .readEntry => 0x11
  | .truncateBank => 0x12
  | .clearBank => 0x13
  | .copyBank => 0x14
  | .commitBank => 0x15
  | .writeChannel => 0x20
  | .readChannel => 0x21
  | .writeCurve => 0x22
  | .readCurve => 0x23
  | .writeSense => 0x24
  | .readSense => 0x25
  | .setOverride => 0x30
  | .freeze => 0x31
  | .thaw => 0x32
  | .clearInterlock => 0x33
  | .fetchEvent => 0x40
  | .readFlags => 0x41
  | .clearFlags => 0x42
  | .setReportMask => 0x43
  | .readCounters => 0x44
  | .resetNode => 0x50

/-- Every request code. -/
def RequestCode.all : List RequestCode :=
  [.readIdentity, .readStatus, .setNode, .readNode, .writeEntry, .readEntry, .truncateBank, .clearBank,
   .copyBank, .commitBank, .writeChannel, .readChannel, .writeCurve, .readCurve, .writeSense, .readSense,
   .setOverride, .freeze, .thaw, .clearInterlock, .fetchEvent, .readFlags, .clearFlags, .setReportMask,
   .readCounters, .resetNode]

/-- The request a Code byte names, none when it names no request (R182). -/
def requestOf (code : Byte) : Option RequestCode := RequestCode.all.find? fun c => c.byte == code

/-- Whether a request may be executed as a broadcast (R148). -/
def RequestCode.broadcastAllowed (c : RequestCode) (object : Byte) : Bool :=
  match c with
  | .commitBank => true
  | .setOverride => object == 0x00 || object == 0x01
  | .freeze => true
  | .thaw => true
  | .clearInterlock => true
  | _ => false

/-- Six Arguments bytes of 0. -/
def noArgs : Args := ⟨0, 0, 0, 0, 0, 0⟩

/-- The fields of a reply that the request's outcome decides (R147). -/
structure Reply where
  status : Status
  object : Byte
  index : BitVec 16
  args : Args
  count : Byte
  deriving DecidableEq, Repr

/-- A reply that carries a status alone: Object and Index as received, every Arguments byte 0 (R147). -/
def answer (q : Req) (status : Status) : Reply := ⟨status, q.object, q.index, noArgs, 0⟩

/-- A reply with status OK and Arguments, Object and Index as received (R147). -/
def answerArgs (q : Req) (args : Args) : Reply := ⟨.ok, q.object, q.index, args, 0⟩

/-- The six Arguments bytes in order. -/
def argBytes (a : Args) : List Byte := [a.a1, a.a2, a.a3, a.a4, a.a5, a.a6]

/-- Fifteen cell bytes with their cell check (section 9.2, R183). -/
def withCheck (bytes : List Byte) : List Byte := bytes ++ [crc8 bytes]

/-- The sixteen bytes of a reply: Destination, Code and Tag as received, Kind REPLY (R147). -/
def replyBytes (code : Byte) (q : Req) (r : Reply) : List Byte :=
  withCheck ([q.destination, 0x02, code, q.tag, r.status.code, r.object, hiByte r.index, loByte r.index]
    ++ argBytes r.args ++ [r.count])

/-- The sixteen bytes of a cell of Kind REQUEST (section 9.2). -/
def requestBytes (code : Byte) (q : Req) : List Byte :=
  withCheck ([q.destination, 0x01, code, q.tag, q.status, q.object, hiByte q.index, loByte q.index]
    ++ argBytes q.args ++ [q.count])

/-- A cell read from its bytes: Kind, Code and the other fields (section 9.2); none unless there are sixteen
bytes and the cell check is correct (R6, R19). -/
def cellOf : List Byte → Option (Byte × Byte × Req)
  | [destination, kind, code, tag, status, object, indexHi, indexLo, a1, a2, a3, a4, a5, a6, count, check] =>
    if check = crc8 [destination, kind, code, tag, status, object, indexHi, indexLo, a1, a2, a3, a4, a5, a6,
        count] then
      some (kind, code,
        ⟨destination, tag, status, object, word16 indexHi indexLo, ⟨a1, a2, a3, a4, a5, a6⟩, count⟩)
    else none
  | _ => none

/-! ## Objects, indices and options (section 9.4) -/

/-- A bank's name from its code. -/
def bankOf (code : Byte) : Option BankName :=
  if code = 0 then some .a else if code = 1 then some .b else none

/-- A channel from an Index: 0 to 15 (R156). -/
def channelOf (index : BitVec 16) : Option (Fin 16) :=
  if h : index.toNat < 16 then some ⟨index.toNat, h⟩ else none

/-- A sense line from an Index: 0 to 7 (R143). -/
def lineOf (index : BitVec 16) : Option (Fin 8) :=
  if h : index.toNat < 8 then some ⟨index.toNat, h⟩ else none

/-- A yes/no or on/off byte (section 9.4, R185). -/
def flagOf (code : Byte) : Option Bool :=
  if code = 0 then some false else if code = 1 then some true else none

/-- The byte of a yes/no or on/off value. -/
def flagByte (b : Bool) : Byte := BitVec.setWidth 8 (bit b)

/-- A Part from its code. -/
def partOf (code : Byte) : Option Part :=
  if code = 0 then some .byte else if code = 1 then some .high else if code = 2 then some .low else none

/-- The code of a Part. -/
def Part.code : Part → Byte
  | .byte => 0
  | .high => 1
  | .low => 2

/-- A Source from its code and the Argument byte, with the ranges of R36. -/
def sourceOf (code argument : Byte) : Option Source :=
  match code.toNat with
  | 0 => some (.const argument)
  | 1 => some .nodeStatus
  | 2 => some .senseLevels
  | 3 => some .matchCount
  | 4 => (lineOf (argument.setWidth 16)).map .captureHi
  | 5 => (lineOf (argument.setWidth 16)).map .captureLo
  | 6 => (channelOf (argument.setWidth 16)).map .levelHi
  | 7 => (channelOf (argument.setWidth 16)).map .levelLo
  | _ => none

/-- The code of a Source, and its Argument where it has one. -/
def Source.code : Source → Byte × Option Byte
  | .const value => (0, some value)
  | .nodeStatus => (1, none)
  | .senseLevels => (2, none)
  | .matchCount => (3, none)
  | .captureHi line => (4, some (BitVec.ofNat 8 line.val))
  | .captureLo line => (5, some (BitVec.ofNat 8 line.val))
  | .levelHi channel => (6, some (BitVec.ofNat 8 channel.val))
  | .levelLo channel => (7, some (BitVec.ofNat 8 channel.val))

/-- The entry a WRITE_ENTRY carries, none when a tested field is out of range (R36, R184, R185): the Slot is
read as 15 bits; the Source and Argument of a TAP and the Channel and Part of an INSERT are not tested. -/
def entryOf (a : Args) : Option Entry :=
  let slot := (a.a1.extractLsb' 0 7 ++ a.a2).toNat
  if slot ≤ 511 then
    let action :=
      if a.a1.getLsbD 7 then (sourceOf a.a5 a.a6).map EntryAction.insert
      else
        match channelOf (a.a3.setWidth 16), partOf a.a4 with
        | some channel, some part => some (.tap channel part)
        | _, _ => none
    action.map fun act => ⟨BitVec.ofNat 9 slot, act⟩
  else none

/-- The Arguments of READ_ENTRY for an entry: absent fields are 0 (R37, R184). -/
def Entry.args (e : Entry) : Args :=
  let slotHi : Byte := flagByte (e.slot.getLsbD 8)
  let slotLo : Byte := e.slot.setWidth 8
  match e.action with
  | .tap channel part => ⟨slotHi, slotLo, BitVec.ofNat 8 channel.val, part.code, 0, 0⟩
  | .insert source => ⟨0x80 ||| slotHi, slotLo, 0, 0, source.code.1, source.code.2.getD 0⟩

/-- The Object of READ_ENTRY: bit 0 Channel present, bit 1 Part, bit 2 Source, bit 3 Argument (R184). -/
def Entry.presence (e : Entry) : Byte :=
  match e.action with
  | .tap _ _ => 0x03
  | .insert source => if source.code.2.isSome then 0x0C else 0x04

/-- A channel mode from its code, 0 to 3 (R185). -/
def modeOf (code : BitVec 4) : Option Mode :=
  if code = 0 then some .dim else if code = 1 then some .strobe else if code = 2 then some .switch
  else if code = 3 then some .pulse else none

/-- The code of a channel mode. -/
def Mode.code : Mode → BitVec 4
  | .dim => 0
  | .strobe => 1
  | .switch => 2
  | .pulse => 3

/-- A Clock Divider from its code; every code is valid (R185). -/
def dividerOf (code : BitVec 2) : Divider :=
  if code = 0 then .by1 else if code = 1 then .by4 else if code = 2 then .by16 else .by64

/-- The code of a Clock Divider. -/
def Divider.code : Divider → BitVec 2
  | .by1 => 0
  | .by4 => 1
  | .by16 => 2
  | .by64 => 3

/-- System-clock periods of one PWM clock (R81). -/
def Divider.periods : Divider → Nat
  | .by1 => 1
  | .by4 => 4
  | .by16 => 16
  | .by64 => 64

/-- A curve number from its code, 0 to 3. -/
def curveOf (code : Byte) : Option (Fin 4) :=
  if h : code.toNat < 4 then some ⟨code.toNat, h⟩ else none

/-- A Condition from its code. -/
def conditionOf (code : Byte) : Option Condition :=
  match code.toNat with
  | 0 => some .ignore
  | 1 => some .anyEdge
  | 2 => some .low
  | 3 => some .high
  | 4 => some .fall
  | 5 => some .rise
  | _ => none

/-- The code of a Condition. -/
def Condition.code : Condition → Byte
  | .ignore => 0
  | .anyEdge => 1
  | .low => 2
  | .high => 3
  | .fall => 4
  | .rise => 5

/-- A Capture Edge from its code. -/
def captureEdgeOf (code : Byte) : Option CaptureEdge :=
  if code = 0 then some .rise else if code = 1 then some .fall else if code = 2 then some .both else none

/-- The code of a Capture Edge. -/
def CaptureEdge.code : CaptureEdge → Byte
  | .rise => 0
  | .fall => 1
  | .both => 2

/-- A Match Mode from its code. -/
def matchModeOf (code : Byte) : Option MatchMode :=
  if code = 0 then some .or else if code = 1 then some .and else none

/-- The code of a Match Mode. -/
def MatchMode.code : MatchMode → Byte
  | .or => 0
  | .and => 1

/-- A loss policy from its code. -/
def lossPolicyOf (code : Byte) : Option LossPolicy :=
  if code = 0 then some .hold else if code = 1 then some .fallback else if code = 2 then some .dark else none

/-- The code of a loss policy. -/
def LossPolicy.code : LossPolicy → Byte
  | .hold => 0
  | .fallback => 1
  | .dark => 2

/-- A reset scope from its code. -/
def scopeOf (code : Byte) : Option Scope :=
  if code = 0 then some .outputs else if code = 1 then some .tables else if code = 2 then some .events
  else if code = 3 then some .node else none

/-- The code of a target source. -/
def TargetSource.code : TargetSource → Byte
  | .tap => 0
  | .fallback => 1
  | .reset => 2

/-- The code of a table operation: 0 none, 1 COPY, 2 COMMIT (R184). -/
def opCode : Option TableOp → BitVec 2
  | none => 0
  | some op => match op.kind with
    | .copy => 1
    | .commit => 2

end Sys2Proof.Machine
end

