-- ==== Sys2Proof/Machine/Generators.lean ====
section
/-! DEFINITION. The output generators (spec/05): the counter and the period, the four modes, enable and
disable; the commands PWM_CLOCK, PERIOD_END and DIM_DUTY_END. -/

namespace Sys2Proof.Machine

/-! ## Counter, period and duty -/

/-- The duty of a level against a period (R108). -/
def dutyOf (v : Level) (period : Level) : Nat :=
  if v = 65535 then period.toNat else v.toNat * period.toNat / 65536

/-- The period end of an enabled channel: the counter returns to 0, a Pending Period becomes the Running
Period, and in DIM a Pending Duty becomes the Applied Level; if either was present the Active Duty is computed
anew, and the line is ACTIVE while the counter is below it (R106, R107, R108, R109). In the other modes no
Pending Duty arises and the line is not the counter's matter. -/
def Generator.periodEnd (g : Generator) (mode : Mode) : Generator :=
  let running := g.pendingPeriod.getD g.runningPeriod
  let applied := g.pendingDuty.getD g.appliedLevel
  if mode = .dim then
    let duty :=
      if g.pendingPeriod.isSome || g.pendingDuty.isSome then dutyOf applied running else g.activeDuty
    { g with counter := 0, runningPeriod := running, pendingPeriod := none, appliedLevel := applied,
             pendingDuty := none, activeDuty := duty, lineActive := decide (0 < duty) }
  else
    { g with counter := 0, runningPeriod := running, pendingPeriod := none }

/-- A PWM clock of an enabled channel (R106, R108): at Running Period − 1 it is the period end, else the counter
advances by 1, and in DIM the line is ACTIVE while the counter is below the Active Duty. -/
def Generator.pwmClock (g : Generator) (mode : Mode) : Generator :=
  if g.runningPeriod.toNat ≤ g.counter + 1 then g.periodEnd mode
  else
    { g with counter := g.counter + 1,
             lineActive := if mode = .dim then decide (g.counter + 1 < g.activeDuty) else g.lineActive }

/-- The end of the active part of a DIM period (R108): the counter, below the Active Duty, comes to it, and the
line is INACTIVE for the rest of the period. A period whose duty is already past, or which is ACTIVE to its end,
has no such point ahead. -/
def Generator.dutyEnd (g : Generator) : Generator :=
  if g.counter < g.activeDuty ∧ g.activeDuty < g.runningPeriod.toNat then
    { g with counter := g.activeDuty, lineActive := false }
  else g

/-! ## What each mode does with the demanded level at a step tick -/

/-- DIM: the demanded level becomes the Pending Duty (R109). -/
def Generator.dimStep (g : Generator) (v : Level) : Generator := { g with pendingDuty := some v }

/-- The flash interval of a demanded level above 0, in steps (R111). -/
def flashInterval (v : Level) : Nat := 2 + (65535 - v.toNat) / 512

/-- The flash length: Pulse Width, clipped to the interval less one step (R111). -/
def flashLength (v : Level) (width : Byte) : Nat := min width.toNat (flashInterval v - 1)

/-- A flash starts (R112). -/
def Generator.startFlash (g : Generator) (v : Level) (width : Byte) : Generator :=
  { g with strobeCycle := true, strobeCount := flashInterval v, flashRemaining := flashLength v width,
           lineActive := true }

/-- STROBE at a step tick (R112, R113). -/
def Generator.strobeStep (g : Generator) (v : Level) (width : Byte) : Generator :=
  if g.strobeCycle then
    if v = 0 then
      { g with strobeCycle := false, strobeCount := 0, flashRemaining := 0, lineActive := false }
    else
      let counted :=
        { g with strobeCount := g.strobeCount - 1, flashRemaining := g.flashRemaining - 1,
                 lineActive := if g.flashRemaining = 1 then false else g.lineActive }
      if counted.strobeCount = 0 then counted.startFlash v width else counted
  else if v = 0 then g
  else g.startFlash v width

/-- SWITCH at a step tick (R114). -/
def Generator.switchStep (g : Generator) (v onThreshold offThreshold : Level) : Generator :=
  if onThreshold ≤ v then { g with lineActive := true }
  else if v ≤ offThreshold then { g with lineActive := false }
  else g

/-- PULSE, the countdown (R116, step 1). -/
def Generator.pulseCountdown (g : Generator) : Generator :=
  { g with pulseRemaining := g.pulseRemaining - 1,
           lineActive := if g.pulseRemaining = 1 then false else g.lineActive }

/-- PULSE, a trigger: it disarms, and starts a pulse, restarts the running one, or is consumed (R117). -/
def Generator.trigger (g : Generator) (width : Byte) (retrigger : Bool) : Generator :=
  if g.pulseRemaining = 0 || retrigger then
    { g with pulseArmed := false, pulseRemaining := width.toNat, lineActive := true }
  else { g with pulseArmed := false }

/-- PULSE at a step tick: countdown, arming, trigger, in that order (R116). -/
def Generator.pulseStep (g : Generator) (c : Channel) : Generator :=
  let counted := g.pulseCountdown
  if c.demanded ≤ c.offThreshold then { counted with pulseArmed := true }
  else if c.onThreshold ≤ c.demanded ∧ counted.pulseArmed = true then
    counted.trigger c.pulseWidth c.retrigger
  else counted

/-- Stage 5 of a step tick for one channel: an enabled channel's generator takes the demanded level, a
disabled one takes nothing (R97, R119). -/
def Generator.step (g : Generator) (c : Channel) : Generator :=
  if c.enabled then
    match c.mode with
    | .dim => g.dimStep c.demanded
    | .strobe => g.strobeStep c.demanded c.pulseWidth
    | .switch => g.switchStep c.demanded c.onThreshold c.offThreshold
    | .pulse => g.pulseStep c
  else g

/-! ## Enable, disable and the Period write -/

/-- The generator at an enable (R120). -/
def Generator.enabledAt (c : Channel) : Generator :=
  { Generator.powerOn with counter := c.phase.toNat, runningPeriod := c.period, pulseArmed := true }

/-- The generator of a disabled channel (R119), as a disable or a write that leaves the channel disabled leaves
it (R122). -/
def Generator.disabledAt (c : Channel) : Generator := { Generator.powerOn with runningPeriod := c.period }

/-- A Period written to an enabled channel (R85, R107): the present one changes nothing, the Running Period
removes a Pending Period, any other becomes the Pending Period. -/
def Generator.writePeriod (g : Generator) (present new : Level) : Generator :=
  if new = present then g
  else if new = g.runningPeriod then { g with pendingPeriod := none }
  else { g with pendingPeriod := some new }

/-! ## Commands -/

/-- The generator of an enabled channel changed by `f`, given the channel's mode; that of a disabled one left
as it is (R106). -/
def State.onGenerator (s : State) (channel : Fin 16) (f : Generator → Mode → Generator) : State :=
  if s.level.channels[channel].enabled then
    { s with generators :=
        s.generators.set channel (f s.generators[channel] s.level.channels[channel].mode) }
  else s

/-- PWM_CLOCK: the counter of an enabled channel advances by 1 (R106). -/
def execPwmClock (channel : Fin 16) (s : State) : Host.Outcome State Fault Refusal :=
  .next (s.onGenerator channel Generator.pwmClock)

/-- PERIOD_END: the counter of an enabled channel returns to 0 (R106, R109). Where the counter is not at Running
Period − 1 the command stands for the channel's PWM clocks up to and with its next period end (log 7). -/
def execPeriodEnd (channel : Fin 16) (s : State) : Host.Outcome State Fault Refusal :=
  .next (s.onGenerator channel Generator.periodEnd)

/-- DIM_DUTY_END: the counter of an enabled DIM channel reaches the Active Duty (R108). Where the counter is
below Active Duty − 1 the command stands for the PWM clocks up to and with the one that brings it there
(log 7). -/
def execDimDutyEnd (channel : Fin 16) (s : State) : Host.Outcome State Fault Refusal :=
  .next (s.onGenerator channel fun g mode => if mode = .dim then g.dutyEnd else g)

end Sys2Proof.Machine
end

