-- ==== Sys2Proof/Machine/Level.lean ====
section
/-! DEFINITION. The step tick of the Level Engine (spec/04, section 4.4): consumption through the curves,
fallback and the loss policy, fades, the override order, and the hand-over to the generators. -/

namespace Sys2Proof.Machine

/-! ## The step pattern -/

/-- Base ticks of a step of the cycle, counted from 0: steps 4, 8, 12, 16, 20 and 24 last 11, the others 10
(R80). -/
def stepLength (step : Fin 25) : Nat := if (step.val + 1) % 4 = 0 then 11 else 10

/-- The next base tick ends the step in progress (R80). -/
def Timebase.lastOfStep (t : Timebase) : Bool := decide (stepLength t.step ≤ t.ticks + 1)

/-- The timebase at a base tick: the capture clock advances and wraps (R79), the step pattern counts, and a
base tick that ends a step makes a step tick due unless that step tick has been taken already (R80, R90). -/
def Timebase.baseTick (t : Timebase) : Timebase :=
  if t.lastOfStep then
    { t with captureClock := t.captureClock + 1, step := t.step + 1, ticks := 0,
             stepDue := t.stepDue || !t.stepTaken, stepTaken := false }
  else { t with captureClock := t.captureClock + 1, ticks := t.ticks + 1 }

/-- A step tick may be taken: a base tick has ended a step, or the coming one does and its step tick has not
been taken yet (R80, R90). -/
def Timebase.stepReady (t : Timebase) : Bool := t.stepDue || (t.lastOfStep && !t.stepTaken)

/-- The timebase once the step tick has been taken. -/
def Timebase.takeStep (t : Timebase) : Timebase :=
  if t.stepDue then { t with stepDue := false } else { t with stepTaken := true }

/-! ## Curves (R87, R88) -/

/-- Curve 1, 2 or 3 at a raw value (R88): segment, fraction, product divided by 4096 and truncated toward
zero, added to the segment's first point. -/
def evalPoints (points : Vector Level 17) (r : Level) : Level :=
  have segment : r.toNat / 4096 < 16 := by have := r.isLt; omega
  let first : Int := points[r.toNat / 4096].toNat
  let next : Int := points[r.toNat / 4096 + 1].toNat
  let fraction : Int := r.toNat % 4096
  BitVec.ofInt 16 (first + ((next - first) * fraction).tdiv 4096)

/-- A raw value through a curve: curve 0 maps each raw value to itself (R87, R88). -/
def evalCurve (curves : Vector (Vector Level 17) 3) (curve : Fin 4) (r : Level) : Level :=
  if h : curve.val = 0 then r
  else
    have known : curve.val - 1 < 3 := by omega
    evalPoints curves[curve.val - 1] r

/-! ## The stages, channel by channel -/

/-- Stage 1 for one channel, taps live (R91). -/
def Channel.consume (c : Channel) (curves : Vector (Vector Level 17) 3) (staged : Staged) : Channel :=
  if staged.fresh then
    { c with raw := staged.raw, target := evalCurve curves c.curve staged.raw, targetSource := .tap }
  else c

/-- The loss policy on entry into fallback, for one channel (R93). -/
def Channel.applyPolicy (c : Channel) : LossPolicy → Channel
  | .hold => c
  | .fallback => { c with target := c.fallbackLevel, targetSource := .fallback }
  | .dark => { c with target := 0, current := 0, targetSource := .fallback }

/-- A current level one step nearer its target (R94). -/
def fadeToward (current target rate : Level) : Level :=
  if rate = 0 ∨ (current.toNat ≤ target.toNat ∧ target.toNat - current.toNat ≤ rate.toNat)
      ∨ (target.toNat < current.toNat ∧ current.toNat - target.toNat ≤ rate.toNat) then target
  else if current < target then current + rate
  else current - rate

/-- Stage 3 for one channel: an enabled channel fades (R94). -/
def Channel.fade (c : Channel) : Channel :=
  if c.enabled then { c with current := fadeToward c.current c.target c.fadeRate } else c

/-- The demanded level by the override order (R95). -/
def Channel.demand (c : Channel) (park : Park) (blackout testFull : Bool) : Level :=
  if !c.enabled then 0
  else if park.active then park.level
  else if blackout && !c.exempt then 0
  else if testFull then 65535
  else c.current

/-- Stage 4 for one channel. -/
def Channel.settle (c : Channel) (park : Park) (blackout testFull : Bool) : Channel :=
  { c with demanded := c.demand park blackout testFull }

/-! ## The stages, on the machine -/

/-- Stage 0: Frozen takes the value of the freeze request (R90, R100). The other inputs of the step are read
where they stand: no stage before their use changes them. -/
def State.stepInputs (s : State) : State :=
  { s with level := { s.level with frozen := s.level.freezeRequest } }

/-- Taps are live (R91). -/
def State.tapsLive (s : State) : Bool :=
  !s.link.fallbackCause && !s.link.staleCause && !s.level.frozen

/-- Stage 1: a PENDING buffer is consumed, or discarded when taps are not live (R91, R74). -/
def State.stepConsume (s : State) : State :=
  match s.slot.pendingRecords with
  | none => s
  | some records =>
    let channels :=
      if s.tapsLive then
        Vector.ofFn fun i => s.level.channels[i].consume s.level.curves records[i]
      else s.level.channels
    { s with slot := s.slot.takePending, level := { s.level with channels := channels } }

/-- Stage 2: enter or leave fallback, with the loss policy on entry (R92, R93). An entry sets the target sources of
FALLBACK and DARK also right after an OUTPUTS or NODE reset that arrives together with the step tick, where R102 has the
channels end in their reset values, source RESET, in both orders: the model's choice (log 19). -/
def State.stepFallback (s : State) : State :=
  let condition := s.link.fallbackCause || s.link.staleCause
  if condition && !s.level.fallback then
    { s with level := { s.level with
        fallback := true,
        channels := Vector.ofFn fun i => s.level.channels[i].applyPolicy s.agent.params.lossPolicy } }.raise
      (.fallback true s.link.fallbackCause s.link.staleCause)
  else if !condition && s.level.fallback then
    { s with level := { s.level with fallback := false } }.raise
      (.fallback false s.link.fallbackCause s.link.staleCause)
  else s

/-- Stage 3: the fades (R94). -/
def State.stepFade (s : State) : State :=
  { s with level := { s.level with channels := Vector.ofFn fun i => s.level.channels[i].fade } }

/-- A source of blackout holds (R96). -/
def State.blackoutSource (s : State) : Bool :=
  s.level.blackout || s.link.heldBlackout || s.sense.active

/-- The blackout-in-force flag, and stage 4: the override order (R95, R96). -/
def State.stepOverrides (s : State) : State :=
  { s with level := { s.level with
      blackoutInForce := s.blackoutSource,
      channels := Vector.ofFn fun i =>
        s.level.channels[i].settle s.level.parks[i] s.blackoutSource s.level.testFull } }

/-- Stage 5: the generators take the demanded levels (R97). -/
def State.stepGenerators (s : State) : State :=
  { s with generators := Vector.ofFn fun i => s.generators[i].step s.level.channels[i] }

/-- The step operation: stages 0 to 5 in order (section 4.4). -/
def State.stepOperation (s : State) : State :=
  s.stepInputs.stepConsume.stepFallback.stepFade.stepOverrides.stepGenerators

/-- STEP_TICK: the step pattern ends a step and the Level Engine runs its step operation (R80, R90 to R97).
Where no base tick ends a step here, no step tick is raised and nothing happens (log 6). -/
def execStepTick (s : State) : Host.Outcome State Fault Refusal :=
  .next (if s.time.stepReady then { s.stepOperation with time := s.time.takeStep } else s)

end Sys2Proof.Machine
end

