-- ==== Sys2Proof/Machine/Sense.lean ====
section
/-! DEFINITION. The Sense Unit's base tick operation (spec/06, R127): filter, capture, match and interlock;
and the command BASE_TICK with the other users of the base tick (R79). -/

namespace Sys2Proof.Machine

/-- A filtered edge (R127). -/
inductive Edge where
  | rise
  | fall
  deriving DecidableEq, Repr

/-- The edge to a level. -/
def Edge.to (high : Bool) : Edge := if high then .rise else .fall

/-- Stage 2 for one line: the sample filtered, and the filtered edge if there is one (R128, R129). -/
def SenseLine.filter (l : SenseLine) (sample : Bool) : SenseLine × Option Edge :=
  if l.filterOn then
    if sample = l.high then ({ l with run := 0 }, none)
    else if l.run = 3 then ({ l with high := sample, run := 0 }, some (.to sample))
    else ({ l with run := l.run + 1 }, none)
  else if sample = l.high then (l, none)
  else ({ l with high := sample }, some (.to sample))

/-- Whether a Capture Edge admits an edge (R136). -/
def CaptureEdge.admits : CaptureEdge → Edge → Bool
  | .rise, .rise => true
  | .rise, .fall => false
  | .fall, .rise => false
  | .fall, .fall => true
  | .both, _ => true

/-- Whether a line captures at an edge (R136). -/
def SenseLine.captures (l : SenseLine) : Option Edge → Bool
  | none => false
  | some edge => l.captureEnable && l.captureEdge.admits edge

/-- Stage 3 for one line: the capture, and the overwritten timestamp if it was an overrun (R136). -/
def SenseLine.capture (l : SenseLine) (clock : BitVec 15) (edge : Option Edge) :
    SenseLine × Option (BitVec 15) :=
  if l.captures edge then
    ({ l with timestamp := clock, fresh := true, overrun := l.fresh },
      if l.fresh then some l.timestamp else none)
  else (l, none)

/-- Stages 2 and 3 for one line: the line, its filtered edge, and the overwritten timestamp. -/
def SenseLine.tick (l : SenseLine) (sample : Bool) (clock : BitVec 15) :
    SenseLine × Option Edge × Option (BitVec 15) :=
  let filtered := l.filter sample
  let captured := filtered.1.capture clock filtered.2
  (captured.1, filtered.2, captured.2)

/-- A level condition that holds (section 6.2). -/
def SenseLine.levelHolds (l : SenseLine) : Bool :=
  match l.condition with
  | .low => !l.high
  | .high => l.high
  | _ => false

/-- An edge condition that fires (section 6.2). -/
def SenseLine.edgeFires (l : SenseLine) (edge : Option Edge) : Bool :=
  match l.condition with
  | .fall => edge == some .fall
  | .rise => edge == some .rise
  | .anyEdge => edge.isSome
  | _ => false

/-- The condition as AND mode takes it (R133): FALL as LOW, RISE as HIGH, ANY_EDGE as IGNORE; none for
IGNORE. -/
def SenseLine.andHolds (l : SenseLine) : Option Bool :=
  match l.condition with
  | .ignore => none
  | .anyEdge => none
  | .low => some (!l.high)
  | .fall => some (!l.high)
  | .high => some l.high
  | .rise => some l.high

/-- The Match State of the lines (R132, R133). -/
def matchStateOf (mode : MatchMode) (lines : List SenseLine) : Bool :=
  match mode with
  | .or => lines.any SenseLine.levelHolds
  | .and => lines.any (fun l => l.andHolds.isSome) && lines.all (fun l => l.andHolds != some false)

/-- Whether a match instance occurs, given the held Match State (R132, R133). -/
def matchOccurs (mode : MatchMode) (held : Bool) (lines : List SenseLine) (edges : List (Option Edge)) :
    Bool :=
  match mode with
  | .or => (List.zipWith SenseLine.edgeFires lines edges).any id || (matchStateOf .or lines && !held)
  | .and => matchStateOf .and lines && !held

/-- The eight Filtered Levels as a byte, line n at bit n (R64, R134). -/
def SenseUnit.levels (u : SenseUnit) : Byte :=
  u.lines.toList.foldr (fun l rest => (rest <<< 1) ||| flagByte l.high) 0

/-- Stages 1 to 3: every line with its edge and the timestamp it overwrote. -/
def SenseUnit.ticked (u : SenseUnit) (sns : Byte) (clock : BitVec 15) :
    Vector (SenseLine × Option Edge × Option (BitVec 15)) 8 :=
  Vector.ofFn fun i => u.lines[i].tick (sns.getLsbD i.val) clock

/-- The Sense Unit after stages 1 to 3. -/
def SenseUnit.sampled (u : SenseUnit) (sns : Byte) (clock : BitVec 15) : SenseUnit :=
  { u with pins := sns, lines := Vector.ofFn fun i => (u.ticked sns clock)[i].1 }

/-- The CAPTURE_OVERRUN events of stage 3, by ascending line (R127, R136). -/
def SenseUnit.overruns (u : SenseUnit) (sns : Byte) (clock : BitVec 15) : List Event :=
  (List.finRange 8).filterMap fun i => (u.ticked sns clock)[i].2.2.map (Event.captureOverrun i)

/-- Whether stage 4 counts a match instance (R131). -/
def SenseUnit.matches (u : SenseUnit) (sns : Byte) (clock : BitVec 15) : Bool :=
  matchOccurs u.matchMode u.matchState (u.sampled sns clock).lines.toList
    ((u.ticked sns clock).toList.map fun t => t.2.1)

/-- Stage 4: the new Match State, and the Match Count after an instance (R131 to R134). -/
def SenseUnit.matched (u : SenseUnit) (sns : Byte) (clock : BitVec 15) : SenseUnit :=
  let sampled := u.sampled sns clock
  { sampled with
      matchState := matchStateOf u.matchMode sampled.lines.toList,
      matchCount := if u.matches sns clock then u.matchCount + 1 else u.matchCount }

/-- Stage 5 sets the interlock: an instance was counted, armed and not yet active (R139). -/
def SenseUnit.trips (u : SenseUnit) (sns : Byte) (clock : BitVec 15) : Bool :=
  u.matches sns clock && u.armed && !u.active

/-- The Sense Unit after its base tick operation (R127). -/
def SenseUnit.baseTick (u : SenseUnit) (sns : Byte) (clock : BitVec 15) : SenseUnit :=
  { u.matched sns clock with active := u.active || u.trips sns clock }

/-- The events of a base tick operation in stage order (R127). -/
def SenseUnit.tickEvents (u : SenseUnit) (sns : Byte) (clock : BitVec 15) : List Event :=
  u.overruns sns clock
    ++ (if u.matches sns clock then [.senseMatch (u.sampled sns clock).levels] else [])
    ++ (if u.trips sns clock then [.interlock true] else [])

/-- The frame timeout counts a base tick (R8). -/
def LinkFramer.countTimeout (l : LinkFramer) : LinkFramer :=
  { l with timeout := l.timeout.map (· - 1) }

/-- A base tick with the sense lines at the levels of `sns`: the capture clock and the step pattern advance,
the frame timeout counts, and the Sense Unit runs its operation with the capture clock after the advance
(R79, R127). -/
def State.baseTick (s : State) (sns : Byte) : State :=
  { s with time := s.time.baseTick, link := s.link.countTimeout,
           sense := s.sense.baseTick sns s.time.baseTick.captureClock }.raiseAll
    (s.sense.tickEvents sns s.time.baseTick.captureClock)

/-- BASE_TICK (R79, R127). -/
def execBaseTick (sns : Byte) (s : State) : Host.Outcome State Fault Refusal :=
  .next (s.baseTick sns)

end Sys2Proof.Machine
end

