-- ==== Sys2Proof/Machine/Map.lean ====
section
/-! DEFINITION. The Map Store (spec/02): the bank requests, the table operation unit with its commands, and
the swap decision at a superframe boundary. -/

namespace Sys2Proof.Machine

/-! ## Editing requests (section 2.3) -/

/-- Steps 1 to 3 of the refusals of a bank request: the bank, or the status that refuses it (R34). Step 2 is
for requests that change the bank. -/
def MapStore.nameBank (m : MapStore) (object : Byte) (changes : Bool) : Except Status BankName :=
  match bankOf object with
  | none => .error .range
  | some name =>
    if changes && name == m.active then .error .locked
    else if (m.bank name).state = .copying ∨ (m.bank name).state = .checking then .error .busy
    else .ok name

/-- A bank's new contents stored, with the reply. -/
def State.storeBank (s : State) (name : BankName) (bank : Bank) : State :=
  { s with map := s.map.setBank name bank }

/-- The state a bank takes when it is truncated to a count (R38). -/
def truncatedState (count : Nat) : BankState := if count = 0 then .empty else .editing

/-- WRITE_ENTRY (R35, R36). -/
def reqWriteEntry (q : Req) (s : State) : State × Reply :=
  match s.map.nameBank q.object true with
  | .error status => (s, answer q status)
  | .ok name =>
    let bank := s.map.bank name
    let index := q.index.toNat
    if bank.count < index then (s, answer q .range)
    else if index = bank.count ∧ bank.count = bankRoom then (s, answer q .full)
    else
      match entryOf q.args with
      | none => (s, answer q .range)
      | some entry =>
        let entries := if index = bank.count then bank.entries ++ [entry] else bank.entries.set index entry
        (s.storeBank name ⟨entries, .editing⟩, answer q .ok)

/-- READ_ENTRY (R37). -/
def reqReadEntry (q : Req) (s : State) : State × Reply :=
  match s.map.nameBank q.object false with
  | .error status => (s, answer q status)
  | .ok name =>
    match (s.map.bank name).entries[q.index.toNat]? with
    | none => (s, answer q .range)
    | some entry => (s, { answerArgs q entry.args with object := entry.presence })

/-- TRUNCATE_BANK (R38). -/
def reqTruncateBank (q : Req) (s : State) : State × Reply :=
  match s.map.nameBank q.object true with
  | .error status => (s, answer q status)
  | .ok name =>
    let bank := s.map.bank name
    if bank.count < q.index.toNat then (s, answer q .range)
    else
      (s.storeBank name ⟨bank.entries.take q.index.toNat, truncatedState q.index.toNat⟩, answer q .ok)

/-- CLEAR_BANK (R39). -/
def reqClearBank (q : Req) (s : State) : State × Reply :=
  match s.map.nameBank q.object true with
  | .error status => (s, answer q status)
  | .ok name => (s.storeBank name .emptied, answer q .ok)

/-- COPY_BANK: the target is emptied and COPYING, and a COPY starts (R41). -/
def reqCopyBank (q : Req) (s : State) : State × Reply :=
  match s.map.nameBank q.object true with
  | .error status => (s, answer q status)
  | .ok name =>
    ({ s with map := { s.map.setBank name ⟨[], .copying⟩ with op := some ⟨.copy, name, 0, none⟩ } },
      answer q .accepted)

/-- COMMIT_BANK: an EMPTY bank is refused with STATE, any other is CHECKING and a COMMIT starts (R43). -/
def reqCommitBank (q : Req) (s : State) : State × Reply :=
  match s.map.nameBank q.object true with
  | .error status => (s, answer q status)
  | .ok name =>
    let bank := s.map.bank name
    if bank.state = .empty then (s, answer q .state)
    else
      ({ s with map := { s.map.setBank name { bank with state := .checking } with
          op := some ⟨.commit, name, 0, none⟩ } }, answer q .accepted)

/-! ## The table operation unit (section 2.4) -/

/-- An entry is an INSERT. -/
def Entry.isInsert (e : Entry) : Bool :=
  match e.action with
  | .tap _ _ => false
  | .insert _ => true

/-- The fault of the entry at an index, tested in the order of R44: its Slot is lower than that of the entry
before it, or it is an INSERT and an earlier INSERT has the same Slot. -/
def commitFault (entries : List Entry) (index : Nat) : Option CommitFault :=
  match entries[index]? with
  | none => none
  | some entry =>
    let earlier := entries.take index
    if earlier.getLast?.any (fun before => decide (entry.slot < before.slot)) then some .slotOrder
    else if entry.isInsert && earlier.any (fun e => e.isInsert && e.slot == entry.slot) then
      some .doubleInsert
    else none

/-- The walk of a COMMIT from an index over the given number of entries: the index at which it stands at its
end, and the fault it stopped at (R44). -/
def commitWalk (entries : List Entry) : Nat → Nat → Nat × Option CommitFault
  | index, 0 => (index, none)
  | index, todo + 1 =>
    match commitFault entries index with
    | some fault => (index, some fault)
    | none => commitWalk entries (index + 1) todo

/-- One entry copied: appended to the target, and the progress index moves on (R42). -/
def MapStore.copyEntry (m : MapStore) : MapStore :=
  match m.op with
  | some ⟨.copy, target, progress, found⟩ =>
    match (m.bank target.other).entries[progress]? with
    | some entry =>
      let bank := m.bank target
      { m.setBank target { bank with entries := bank.entries ++ [entry] } with
        op := some ⟨.copy, target, progress + 1, found⟩ }
    | none => m
  | _ => m

/-- A COPY completed: the entries not yet copied follow, the target is EDITING and the unit idle; with the
event raised (R42). -/
def MapStore.copyDone (m : MapStore) : MapStore × Option Event :=
  match m.op with
  | some ⟨.copy, target, progress, _⟩ =>
    let entries := (m.bank target).entries ++ (m.bank target.other).entries.drop progress
    ({ m.setBank target ⟨entries, .editing⟩ with op := none },
      some (.tableOpDone target .copy none entries.length))
  | _ => (m, none)

/-- One entry examined: the walk moves on, or stops at the fault it finds (R44). -/
def MapStore.examineEntry (m : MapStore) : MapStore :=
  match m.op with
  | some ⟨.commit, target, progress, none⟩ =>
    if progress < (m.bank target).count then
      match commitFault (m.bank target).entries progress with
      | none => { m with op := some ⟨.commit, target, progress + 1, none⟩ }
      | some fault => { m with op := some ⟨.commit, target, progress, some fault⟩ }
    else m
  | _ => m

/-- The end of a COMMIT's walk from where it stands (R44). -/
def TableOp.finishWalk (op : TableOp) (entries : List Entry) : Nat × Option CommitFault :=
  match op.found with
  | some fault => (op.progress, some fault)
  | none => commitWalk entries op.progress (entries.length - op.progress)

/-- A COMMIT completed: the entries not yet examined are examined, the bank is READY or, at a fault, EDITING,
and the unit idle; with the event raised (R45). -/
def MapStore.commitDone (m : MapStore) : MapStore × Option Event :=
  match m.op with
  | some ⟨.commit, target, progress, found⟩ =>
    let bank := m.bank target
    match TableOp.finishWalk ⟨.commit, target, progress, found⟩ bank.entries with
    | (_, none) =>
      ({ m.setBank target { bank with state := .ready } with op := none },
        some (.tableOpDone target .commit none bank.count))
    | (index, some fault) =>
      ({ m.setBank target { bank with state := .editing } with op := none },
        some (.tableOpDone target .commit (some fault) index))
  | _ => (m, none)

/-- COPY_ENTRY_COPIED: the unit copies one entry (R42). -/
def execCopyEntryCopied (s : State) : Host.Outcome State Fault Refusal :=
  .next { s with map := s.map.copyEntry }

/-- The TABLE_OP_DONE that the Map Store still owes, if any, is placed (R40, R178). -/
def State.placeOwed (s : State) : State :=
  { s with map := { s.map with owed := none } }.raise? s.map.owed

/-- An operation ends as `finish` says: the unit is idle, and its TABLE_OP_DONE is owed; one owed from an earlier
operation is placed before (R40). Where `finish` ends nothing, nothing happens. -/
def State.freeUnit (s : State) (finish : MapStore → MapStore × Option Event) : State :=
  match finish s.map with
  | (_, none) => s
  | (map, some done) => { s.placeOwed with map := { map with owed := some done } }

/-- The completion of a table operation, whole or one of its two parts (R40, R178; log 17). -/
def State.complete (s : State) (finish : MapStore → MapStore × Option Event) : Completion → State
  | .whole => (s.freeUnit finish).placeOwed
  | .unitIdle => s.freeUnit finish
  | .recordPlaced => s.placeOwed

/-- COPY_COMPLETE: the COPY in flight completes (R42). Where entries remain, the command stands for their
copying and the completion after it (log 7). -/
def execCopyComplete (s : State) (part : Completion := .whole) : Host.Outcome State Fault Refusal :=
  .next (s.complete MapStore.copyDone part)

/-- COMMIT_ENTRY_EXAMINED: the unit examines one entry (R44). -/
def execCommitEntryExamined (s : State) : Host.Outcome State Fault Refusal :=
  .next { s with map := s.map.examineEntry }

/-- COMMIT_COMPLETE: the COMMIT in flight completes (R45). Where entries remain to be examined, the command
stands for their examining and the completion after it (log 7). -/
def execCommitComplete (s : State) (part : Completion := .whole) : Host.Outcome State Fault Refusal :=
  .next (s.complete MapStore.commitDone part)

/-! ## The swap at a superframe boundary (section 2.5) -/

/-- The decision at a boundary whose header names a bank, and the event it raises (R47, R48, R49). -/
def MapStore.boundary (m : MapStore) (named : BankName) : MapStore × Option Event :=
  if named = m.active then ({ m with misaligned := false }, none)
  else if (m.bank named).state = .ready then
    ({ m with active := named, misaligned := false }, some (.bankSwitched named (m.bank named).count))
  else
    ({ m with misaligned := true },
      if m.misaligned then none else some (.swapRefused named (m.bank named).state))

end Sys2Proof.Machine
end

