-- ==== Sys2Proof/Machine/Slots.lean ====
section
/-! DEFINITION. The Slot Engine (spec/03): the start of an acting frame, taps, inserts, and the walk of the
active bank at one slot. -/

namespace Sys2Proof.Machine

/-! ## Acting frames -/

/-- The buffer an acting frame takes: FILLING, every staged raw value the channel's committed raw value and
none fresh (R58). -/
def fillingBuffer (channels : Vector Channel 16) : Buffer :=
  ⟨.filling, Vector.ofFn fun i => ⟨channels[i].raw, false⟩⟩

/-- The Slot Engine at the start of an acting frame: X taken when it is FREE, else Y; the snapshot of the
demanded levels; the place at entry 0 (R58). -/
def SlotEngine.startFrame (e : SlotEngine) (channels : Vector Channel 16) : SlotEngine :=
  let taken :=
    if e.x.state = .free then { e with x := fillingBuffer channels }
    else { e with y := fillingBuffer channels }
  { taken with acting := true, place := 0, snapshot := Vector.ofFn fun i => channels[i].demanded }

/-- The acting-frame decision at a good header in LOCKED, after position and boundary (R56): position 1 to 250
and mode ACTIVE. -/
def State.decideActing (s : State) : State :=
  if s.link.position ≠ 0 ∧ s.link.position.toNat ≤ 250 ∧ s.agent.params.passive = false then
    { s with slot := s.slot.startFrame s.level.channels }
  else { s with slot := { s.slot with acting := false } }

/-! ## Taps -/

/-- The staged raw value after a tap of a byte (R60). -/
def tapValue (part : Part) (staged : Level) (b : Byte) : Level :=
  match part with
  | .byte => word16 b b
  | .high => word16 b (loByte staged)
  | .low => word16 (hiByte staged) b

/-- A buffer's record of a channel after a tap: the value by its Part, and fresh (R60). -/
def Buffer.tap (buffer : Buffer) (channel : Fin 16) (part : Part) (b : Byte) : Buffer :=
  if buffer.state = .filling then
    { buffer with records :=
        buffer.records.set channel ⟨tapValue part buffer.records[channel].raw b, true⟩ }
  else buffer

/-- A tap writes into the FILLING buffer (R60). -/
def SlotEngine.tap (e : SlotEngine) (channel : Fin 16) (part : Part) (b : Byte) : SlotEngine :=
  { e with x := e.x.tap channel part b, y := e.y.tap channel part b }

/-! ## Inserts -/

/-- The byte an INSERT sends, from the state at the slot's arrival (R62 to R66). -/
def State.insertByte (s : State) : Source → Byte
  | .const value => value
  | .nodeStatus => s.statusByte
  | .senseLevels => s.sense.levels
  | .matchCount => s.sense.matchCount
  | .captureHi line =>
    if s.sense.lines[line].fresh then hiByte (s.sense.lines[line].timestamp.setWidth 16) else 255
  | .captureLo line =>
    if s.sense.lines[line].fresh then loByte (s.sense.lines[line].timestamp.setWidth 16) else 255
  | .levelHi channel => hiByte s.slot.snapshot[channel]
  | .levelLo channel => loByte s.slot.snapshot[channel]

/-- A sense line's record with Fresh cleared (R66, R137). -/
def SenseUnit.clearFresh (u : SenseUnit) (line : Fin 8) : SenseUnit :=
  { u with lines := u.lines.set line { u.lines[line] with fresh := false } }

/-- The state after an INSERT has been performed: CAPTURE_LO clears its line's Fresh, no other source changes
anything (R66). -/
def State.afterInsert (s : State) (source : Source) : State :=
  match source with
  | .captureLo line => { s with sense := s.sense.clearFresh line }
  | _ => s

/-! ## The walk at one slot -/

/-- One entry performed at its slot's arrival, with the byte that leaves so far (R59, R60, R62). -/
def State.perform (s : State) (entry : Entry) (received sent : Byte) : State × Byte :=
  match entry.action with
  | .tap channel part => ({ s with slot := s.slot.tap channel part received }, sent)
  | .insert source => (s.afterInsert source, s.insertByte source)

/-- The walk over the entries that remain: each whose Slot is the slot's number is performed and passed, and the
walk stops at the first that is not (R59). -/
def State.walkSlot (number : Nat) (received : Byte) : List Entry → State → Byte → State × Byte
  | [], s, sent => (s, sent)
  | entry :: rest, s, sent =>
    if entry.slot.toNat = number then
      let done := s.perform entry received sent
      State.walkSlot number received rest
        { done.1 with slot := { done.1.slot with place := done.1.slot.place + 1 } } done.2
    else (s, sent)

/-- A slot of a LOCKED frame arrives: in an acting frame the active bank's entries for it are performed from
the present place; in any other frame it leaves as received (R57, R59). The byte is the one that leaves. -/
def State.slotActions (s : State) (number : Nat) (received : Byte) : State × Byte :=
  if s.slot.acting then
    State.walkSlot number received ((s.map.bank s.map.active).entries.drop s.slot.place) s received
  else (s, received)

end Sys2Proof.Machine
end

