-- ==== Sys2Proof/Machine/Requests.lean ====
section
/-! DEFINITION. The requests the Management Agent executes for the other blocks (spec/07, sections 7.2, 7.4 to
7.7): what each does to the state and what it answers. The bank requests stand in Map.lean. -/

namespace Sys2Proof.Machine

/-! ## Identity, status and node parameters (section 7.2) -/

/-- READ_IDENTITY: vendor code 5C31h, part code 0648h, revision 01h (R152, R184). -/
def reqReadIdentity (q : Req) (s : State) : State × Reply :=
  (s, answerArgs q ⟨0x5C, 0x31, 0x06, 0x48, 0x01, 0⟩)

/-- The LINK page (R153, R184). -/
def State.linkPage (s : State) : Args :=
  ⟨s.link.state.code.setWidth 2 ++ bit s.agent.params.passive ++ bit s.link.staleCause
      ++ BitVec.ofNat 2 s.link.staleStage.val ++ bit s.link.reference.isSome ++ (0 : BitVec 1),
    s.link.position, BitVec.ofNat 8 s.link.badHeaders, s.link.reference.getD 0,
    BitVec.ofNat 8 s.link.staleCount, 0⟩

/-- The MAP page (R153, R55, R184). -/
def State.mapPage (s : State) : Args :=
  ⟨bit (s.map.active == .b) ++ bit s.map.misaligned ++ opCode s.map.op
      ++ bit (s.map.op.any fun op => op.target == .b) ++ (0 : BitVec 3),
    s.map.bankA.state.code, BitVec.ofNat 8 s.map.bankA.count,
    s.map.bankB.state.code, BitVec.ofNat 8 s.map.bankB.count, 0⟩

/-- The LEVEL page (R153, R184). -/
def State.levelPage (s : State) : Args :=
  ⟨bit s.level.fallback ++ bit s.link.fallbackCause ++ bit s.link.staleCause ++ bit s.level.blackout
      ++ bit s.link.heldBlackout ++ bit s.sense.active ++ bit s.sense.armed ++ bit s.level.blackoutInForce,
    bit s.level.testFull ++ bit s.level.freezeRequest ++ bit s.level.frozen ++ (0 : BitVec 5),
    BitVec.ofNat 8 s.agent.queue.length, s.statusByte, 0, 0⟩

/-- The PARK page of a channel (R153, R184). -/
def Park.page (p : Park) : Args := ⟨flagByte p.active, hiByte p.level, loByte p.level, 0, 0, 0⟩

/-- READ_STATUS (R153). -/
def reqReadStatus (q : Req) (s : State) : State × Reply :=
  match q.object.toNat with
  | 0 => (s, answerArgs q s.linkPage)
  | 1 => (s, answerArgs q s.mapPage)
  | 2 => (s, answerArgs q s.levelPage)
  | 3 =>
    match channelOf q.index with
    | none => (s, answer q .range)
    | some channel => (s, answerArgs q s.level.parks[channel].page)
  | _ => (s, answer q .range)

/-- The node parameters after a SET_NODE of a value to the parameter of an Object; none when the Object names
no parameter or the value is refused (R154, R26). -/
def NodeParams.write (p : NodeParams) (object value : Byte) : Option NodeParams :=
  match object.toNat with
  | 0 => (lossPolicyOf value).map fun policy => { p with lossPolicy := policy }
  | 1 => some { p with frameTimeout := value }
  | 2 => if p.staleLimit ≠ 0 ∧ p.staleLimit < value then none else some { p with staleWarn := value }
  | 3 => if value < p.staleWarn then none else some { p with staleLimit := value }
  | 4 => (flagOf value).map fun passive => { p with passive := passive }
  | _ => none

/-- The stored value of the parameter of an Object (R154). -/
def NodeParams.read (p : NodeParams) (object : Byte) : Option Byte :=
  match object.toNat with
  | 0 => some p.lossPolicy.code
  | 1 => some p.frameTimeout
  | 2 => some p.staleWarn
  | 3 => some p.staleLimit
  | 4 => some (flagByte p.passive)
  | _ => none

/-- SET_NODE (R154). -/
def reqSetNode (q : Req) (s : State) : State × Reply :=
  match s.agent.params.write q.object q.args.a1 with
  | none => (s, answer q .range)
  | some params => ({ s with agent := { s.agent with params := params } }, answer q .ok)

/-- READ_NODE (R154). -/
def reqReadNode (q : Req) (s : State) : State × Reply :=
  match s.agent.params.read q.object with
  | none => (s, answer q .range)
  | some value => (s, answerArgs q { noArgs with a1 := value })

/-! ## Channels (R84, R85, R156) -/

/-- The OUTPUT group as WRITE_CHANNEL carries it (R184). -/
structure OutputGroup where
  enabled : Bool
  inverted : Bool
  divider : Divider
  modeCode : BitVec 4
  period : Level
  phase : Level
  deriving DecidableEq, Repr

/-- The OUTPUT group of the Arguments (R184). -/
def outputGroupOf (a : Args) : OutputGroup :=
  { enabled := a.a1.getLsbD 7, inverted := a.a1.getLsbD 6, divider := dividerOf (a.a1.extractLsb' 4 2),
    modeCode := a.a1.extractLsb' 0 4, period := word16 a.a2 a.a3, phase := word16 a.a4 a.a5 }

/-- The range tests of Period and Phase, the Phase against the Period carried (R85). -/
def OutputGroup.inRange (g : OutputGroup) : Bool := decide (16 ≤ g.period ∧ g.phase < g.period)

/-- A write-locked field differs from its present value (R85). -/
def OutputGroup.meetsLock (g : OutputGroup) (c : Channel) : Bool :=
  g.modeCode != c.mode.code || g.divider != c.divider || g.phase != c.phase || g.inverted != c.inverted

/-- A channel's record and generator after an OUTPUT write, or the status that refuses it (R85, R86, R107, R119,
R120, R122). -/
def writeOutput (g : OutputGroup) (c : Channel) (gen : Generator) : Except Status (Channel × Generator) :=
  if c.enabled then
    if g.meetsLock c then .error .locked
    else if !g.inRange then .error .range
    else if g.enabled then
      .ok ({ c with period := g.period }, gen.writePeriod c.period g.period)
    else
      let off := { c with enabled := false, period := g.period, demanded := 0 }
      .ok (off, .disabledAt off)
  else
    match modeOf g.modeCode with
    | none => .error .range
    | some mode =>
      if !g.inRange then .error .range
      else
        let written := { c with enabled := g.enabled, mode := mode, divider := g.divider,
                                period := g.period, phase := g.phase, inverted := g.inverted }
        .ok (written, if g.enabled then .enabledAt written else { gen with runningPeriod := g.period })

/-- The LEVEL group written, none when a field is out of range (R84). -/
def Channel.writeLevel (c : Channel) (a : Args) : Option Channel :=
  match curveOf a.a1, flagOf a.a6 with
  | some curve, some exempt =>
    some { c with curve := curve, fadeRate := word16 a.a2 a.a3, fallbackLevel := word16 a.a4 a.a5,
                  exempt := exempt }
  | _, _ => none

/-- The TRIGGER group written, none when a field is out of range (R84). -/
def Channel.writeTrigger (c : Channel) (a : Args) : Option Channel :=
  let onThreshold := word16 a.a1 a.a2
  let offThreshold := word16 a.a3 a.a4
  if onThreshold = 0 ∨ onThreshold ≤ offThreshold ∨ a.a5 = 0 then none
  else
    (flagOf a.a6).map fun retrigger =>
      { c with onThreshold := onThreshold, offThreshold := offThreshold, pulseWidth := a.a5,
               retrigger := retrigger }

/-- The machine with one channel record replaced. -/
def State.setChannel (s : State) (channel : Fin 16) (c : Channel) : State :=
  { s with level := { s.level with channels := s.level.channels.set channel c } }

/-- The machine with one generator replaced. -/
def State.setGenerator (s : State) (channel : Fin 16) (g : Generator) : State :=
  { s with generators := s.generators.set channel g }

/-- WRITE_CHANNEL of the OUTPUT group to a channel (R85). -/
def reqWriteOutput (q : Req) (channel : Fin 16) (s : State) : State × Reply :=
  match writeOutput (outputGroupOf q.args) s.level.channels[channel] s.generators[channel] with
  | .error status => (s, answer q status)
  | .ok (c, g) => ((s.setChannel channel c).setGenerator channel g, answer q .ok)

/-- WRITE_CHANNEL of the LEVEL or TRIGGER group: written whole or refused with RANGE (R84). -/
def reqWriteGroup (q : Req) (channel : Fin 16) (written : Option Channel) (s : State) : State × Reply :=
  match written with
  | none => (s, answer q .range)
  | some c => (s.setChannel channel c, answer q .ok)

/-- WRITE_CHANNEL: a channel above 15, an Object that names no group, and RUNTIME are refused with RANGE (R156,
R83). -/
def reqWriteChannel (q : Req) (s : State) : State × Reply :=
  match channelOf q.index with
  | none => (s, answer q .range)
  | some channel =>
    match q.object.toNat with
    | 0 => reqWriteOutput q channel s
    | 1 => reqWriteGroup q channel (s.level.channels[channel].writeLevel q.args) s
    | 2 => reqWriteGroup q channel (s.level.channels[channel].writeTrigger q.args) s
    | _ => (s, answer q .range)

/-- The OUTPUT group as READ_CHANNEL returns it (R184). -/
def Channel.outputArgs (c : Channel) : Args :=
  ⟨bit c.enabled ++ bit c.inverted ++ c.divider.code ++ c.mode.code, hiByte c.period, loByte c.period,
    hiByte c.phase, loByte c.phase, 0⟩

/-- The LEVEL group as READ_CHANNEL returns it (R184). -/
def Channel.levelArgs (c : Channel) : Args :=
  ⟨BitVec.ofNat 8 c.curve.val, hiByte c.fadeRate, loByte c.fadeRate, hiByte c.fallbackLevel,
    loByte c.fallbackLevel, flagByte c.exempt⟩

/-- The TRIGGER group as READ_CHANNEL returns it (R184). -/
def Channel.triggerArgs (c : Channel) : Args :=
  ⟨hiByte c.onThreshold, loByte c.onThreshold, hiByte c.offThreshold, loByte c.offThreshold, c.pulseWidth,
    flagByte c.retrigger⟩

/-- The raw, target and current of the RUNTIME group as READ_CHANNEL returns them (R184). -/
def Channel.runtimeArgs (c : Channel) : Args :=
  ⟨hiByte c.raw, loByte c.raw, hiByte c.target, loByte c.target, hiByte c.current, loByte c.current⟩

/-- READ_CHANNEL (R156, R82, R83, R184). -/
def reqReadChannel (q : Req) (s : State) : State × Reply :=
  match channelOf q.index with
  | none => (s, answer q .range)
  | some channel =>
    let c := s.level.channels[channel]
    match q.object.toNat with
    | 0 => (s, answerArgs q c.outputArgs)
    | 1 => (s, answerArgs q c.levelArgs)
    | 2 => (s, answerArgs q c.triggerArgs)
    | 3 => (s, ⟨.ok, c.targetSource.code, c.demanded, c.runtimeArgs, 0⟩)
    | _ => (s, answer q .range)

/-! ## Curves (R89, R157) -/

/-- The point values a WRITE_CURVE carries, as many as its count byte says (R184). -/
def curveValues (a : Args) (count : Nat) : List Level :=
  [word16 a.a1 a.a2, word16 a.a3 a.a4, word16 a.a5 a.a6].take count

/-- Points written from a first point on. -/
def writePoints (points : Vector Level 17) (first : Nat) (values : List Level) : Vector Level 17 :=
  Vector.ofFn fun k => if first ≤ k.val then values.getD (k.val - first) points[k] else points[k]

/-- WRITE_CURVE (R89). -/
def reqWriteCurve (q : Req) (s : State) : State × Reply :=
  match curveOf q.object with
  | none => (s, answer q .range)
  | some curve =>
    if h : curve.val = 0 then (s, answer q .locked)
    else if q.count.toNat < 1 ∨ 3 < q.count.toNat ∨ 16 < q.index.toNat + q.count.toNat - 1 then
      (s, answer q .range)
    else
      have known : curve.val - 1 < 3 := by omega
      let points := writePoints s.level.curves[curve.val - 1] q.index.toNat
        (curveValues q.args q.count.toNat)
      ({ s with level := { s.level with curves := s.level.curves.set (curve.val - 1) points } },
        answer q .ok)

/-- The points of a curve, curve 0 reading as the default points (R87). -/
def LevelEngine.curvePoints (l : LevelEngine) (curve : Fin 4) : Vector Level 17 :=
  if h : curve.val = 0 then defaultPoints
  else
    have known : curve.val - 1 < 3 := by omega
    l.curves[curve.val - 1]

/-- The points READ_CURVE returns: up to three from the first, as many as lie at or below point 16 (R89). -/
def readPoints (points : Vector Level 17) (first : Nat) : List Level :=
  (points.toList.drop first).take 3

/-- Up to three points in the Arguments, unused ones 0 (R157). -/
def pointArgs (values : List Level) : Args :=
  ⟨hiByte (values.getD 0 0), loByte (values.getD 0 0), hiByte (values.getD 1 0), loByte (values.getD 1 0),
    hiByte (values.getD 2 0), loByte (values.getD 2 0)⟩

/-- READ_CURVE: its count byte is the number of points returned (R89, R157, R182). -/
def reqReadCurve (q : Req) (s : State) : State × Reply :=
  match curveOf q.object with
  | none => (s, answer q .range)
  | some curve =>
    if 16 < q.index.toNat then (s, answer q .range)
    else
      let values := readPoints (s.level.curvePoints curve) q.index.toNat
      (s, { answerArgs q (pointArgs values) with count := BitVec.ofNat 8 values.length })

/-! ## Sense requests (section 6.5) -/

/-- A line with the four settings a WRITE_SENSE carries, none when one is out of range (R143). A change of
Filter sets the Run Count to 0 (R129), and Capture Enable no clears Fresh (R137). -/
def SenseLine.write (l : SenseLine) (a : Args) : Option SenseLine :=
  match conditionOf a.a1, flagOf a.a2, flagOf a.a3, captureEdgeOf a.a4 with
  | some condition, some filterOff, some captureEnable, some captureEdge =>
    some { l with condition := condition, filterOn := !filterOff, captureEnable := captureEnable,
                  captureEdge := captureEdge,
                  run := if l.filterOn = !filterOff then l.run else 0,
                  fresh := l.fresh && captureEnable }
  | _, _, _, _ => none

/-- The global settings a WRITE_SENSE for line 8 carries (R143). -/
def SenseUnit.writeGlobal (u : SenseUnit) (a : Args) : Option SenseUnit :=
  match matchModeOf a.a1, flagOf a.a2 with
  | some mode, some armed => some { u with matchMode := mode, armed := armed }
  | _, _ => none

/-- The Sense Unit with one line replaced. -/
def SenseUnit.setLine (u : SenseUnit) (line : Fin 8) (l : SenseLine) : SenseUnit :=
  { u with lines := u.lines.set line l }

/-- WRITE_SENSE: a line above 8, or a setting out of range, is refused with RANGE (R143). -/
def reqWriteSense (q : Req) (s : State) : State × Reply :=
  let written :=
    match lineOf q.index with
    | some line => (s.sense.lines[line].write q.args).map (s.sense.setLine line)
    | none => if q.index = 8 then s.sense.writeGlobal q.args else none
  match written with
  | none => (s, answer q .range)
  | some sense => ({ s with sense := sense }, answer q .ok)

/-- A line's settings and record as READ_SENSE returns them (R138, R184). -/
def SenseLine.args (l : SenseLine) : Args :=
  ⟨l.condition.code, flagByte (!l.filterOn), flagByte l.captureEnable, l.captureEdge.code,
    bit l.fresh ++ l.timestamp.extractLsb' 8 7, l.timestamp.setWidth 8⟩

/-- The Object of READ_SENSE for a line: bit 0 the Filtered Level, bit 1 Overrun (R184). -/
def SenseLine.levels (l : SenseLine) : Byte := (0 : BitVec 6) ++ bit l.overrun ++ bit l.high

/-- The global settings as READ_SENSE returns them (R144, R184). -/
def SenseUnit.globalArgs (u : SenseUnit) : Args :=
  ⟨u.matchMode.code, flagByte u.armed, flagByte u.active, flagByte u.matchState, u.matchCount, 0⟩

/-- READ_SENSE (R144). -/
def reqReadSense (q : Req) (s : State) : State × Reply :=
  match lineOf q.index with
  | some line =>
    (s, { answerArgs q s.sense.lines[line].args with object := s.sense.lines[line].levels })
  | none => if q.index = 8 then (s, answerArgs q s.sense.globalArgs) else (s, answer q .range)

/-! ## Overrides, freeze and the interlock (section 7.5) -/

/-- SET_OVERRIDE (R98, R99, R159). -/
def reqSetOverride (q : Req) (s : State) : State × Reply :=
  match q.object.toNat, flagOf q.args.a1 with
  | 0, some on => ({ s with level := { s.level with blackout := on } }, answer q .ok)
  | 1, some on => ({ s with level := { s.level with testFull := on } }, answer q .ok)
  | 2, some on =>
    match channelOf q.index with
    | none => (s, answer q .range)
    | some channel =>
      let level := if on then word16 q.args.a2 q.args.a3 else s.level.parks[channel].level
      ({ s with level := { s.level with parks := s.level.parks.set channel ⟨on, level⟩ } }, answer q .ok)
  | _, _ => (s, answer q .range)

/-- FREEZE (R100). -/
def reqFreeze (q : Req) (s : State) : State × Reply :=
  ({ s with level := { s.level with freezeRequest := true } }, answer q .ok)

/-- THAW (R100). -/
def reqThaw (q : Req) (s : State) : State × Reply :=
  ({ s with level := { s.level with freezeRequest := false } }, answer q .ok)

/-- CLEAR_INTERLOCK (R140). -/
def reqClearInterlock (q : Req) (s : State) : State × Reply :=
  if s.sense.active then
    if s.sense.matchState then (s, answer q .state)
    else ({ s with sense := { s.sense with active := false } }.raise (.interlock false), answer q .ok)
  else (s, answer q .ok)

/-! ## Events, flags and counters (section 7.6) -/

/-- FETCH_EVENT (R161, R184, R186). -/
def reqFetchEvent (q : Req) (s : State) : State × Reply :=
  match s.agent.queue with
  | [] => (s, { answer q .empty with index := 0 })
  | r :: rest =>
    ({ s with agent := { s.agent with queue := rest } },
      ⟨.ok, BitVec.ofNat 8 r.kind.code, BitVec.ofNat 16 rest.length,
        ⟨r.subject.byte, hiByte r.stamp, loByte r.stamp, hiByte r.detail, loByte r.detail, 0⟩, 0⟩)

/-- The flags and the mask as READ_FLAGS and CLEAR_FLAGS return them (R184). -/
def Agent.flagArgs (ag : Agent) : Args :=
  ⟨hiByte (ag.flags.setWidth 16), loByte (ag.flags.setWidth 16), hiByte (ag.mask.setWidth 16),
    loByte (ag.mask.setWidth 16), 0, 0⟩

/-- READ_FLAGS (R162). -/
def reqReadFlags (q : Req) (s : State) : State × Reply := (s, answerArgs q s.agent.flagArgs)

/-- CLEAR_FLAGS: the flags as they stood are returned, and each flag named is cleared (R162, R185). -/
def reqClearFlags (q : Req) (s : State) : State × Reply :=
  let named : BitVec 14 := (word16 q.args.a1 q.args.a2).setWidth 14
  ({ s with agent := { s.agent with flags := s.agent.flags &&& ~~~named } }, answerArgs q s.agent.flagArgs)

/-- SET_REPORT_MASK: bits 12 to 15 are not read (R163, R185). -/
def reqSetReportMask (q : Req) (s : State) : State × Reply :=
  ({ s with agent := { s.agent with mask := (word16 q.args.a1 q.args.a2).setWidth 12 } }, answer q .ok)

/-- The CHECKS group cleared (R164). -/
def LinkFramer.clearChecks (l : LinkFramer) : LinkFramer :=
  { l with headerErrors := 0, frameCheckErrors := 0, cellCheckErrors := 0, truncatedFrames := 0 }

/-- The CHECKS group's Arguments (R164, R184). -/
def LinkFramer.checksArgs (l : LinkFramer) : Args :=
  ⟨hiByte l.frameCheckErrors, loByte l.frameCheckErrors, hiByte l.cellCheckErrors, loByte l.cellCheckErrors,
    hiByte l.truncatedFrames, loByte l.truncatedFrames⟩

/-- The frame clock in the Arguments, most significant byte first (R164, R184). -/
def LinkFramer.clockArgs (l : LinkFramer) : Args :=
  ⟨l.frameClock.extractLsb' 24 8, l.frameClock.extractLsb' 16 8, l.frameClock.extractLsb' 8 8,
    l.frameClock.extractLsb' 0 8, 0, 0⟩

/-- READ_COUNTERS: the group's values are captured, and its counters cleared with the clear option; the frame
clock is never cleared (R164, R27). -/
def reqReadCounters (q : Req) (s : State) : State × Reply :=
  match q.object.toNat, flagOf q.args.a1 with
  | 0, some clear =>
    (if clear then { s with link := s.link.clearChecks } else s,
      ⟨.ok, q.object, s.link.headerErrors, s.link.checksArgs, 0⟩)
  | 1, some clear =>
    (if clear then { s with link := { s.link with indexSlips := 0 } } else s,
      ⟨.ok, q.object, s.link.indexSlips, s.link.clockArgs, 0⟩)
  | _, _ => (s, answer q .range)

/-! ## Node reset (section 7.7) -/

/-- RESET_NODE: the scope becomes the reset in progress, to be applied at the frame's end (R165). -/
def reqResetNode (q : Req) (s : State) : State × Reply :=
  match scopeOf q.object with
  | none => (s, answer q .range)
  | some scope => ({ s with agent := { s.agent with resetScope := some scope } }, answer q .ok)

end Sys2Proof.Machine
end

