-- ==== Sys2Proof/Machine/Agent.lean ====
section
/-! DEFINITION. How the Management Agent takes a cell (spec/07, section 7.1): Destination, broadcasts, the
reply; and the command of each request row. -/

namespace Sys2Proof.Machine

/-- What a request does to the state and answers, by its Code (R149). -/
def RequestCode.run : RequestCode → Req → State → State × Reply
  | .readIdentity => reqReadIdentity
  | .readStatus => reqReadStatus
  | .setNode => reqSetNode
  | .readNode => reqReadNode
  | .writeEntry => reqWriteEntry
  | .readEntry => reqReadEntry
  | .truncateBank => reqTruncateBank
  | .clearBank => reqClearBank
  | .copyBank => reqCopyBank
  | .commitBank => reqCommitBank
  | .writeChannel => reqWriteChannel
  | .readChannel => reqReadChannel
  | .writeCurve => reqWriteCurve
  | .readCurve => reqReadCurve
  | .writeSense => reqWriteSense
  | .readSense => reqReadSense
  | .setOverride => reqSetOverride
  | .freeze => reqFreeze
  | .thaw => reqThaw
  | .clearInterlock => reqClearInterlock
  | .fetchEvent => reqFetchEvent
  | .readFlags => reqReadFlags
  | .clearFlags => reqClearFlags
  | .setReportMask => reqSetReportMask
  | .readCounters => reqReadCounters
  | .resetNode => reqResetNode

/-- The reply takes the place of the received cell (R147). -/
def State.writeReply (s : State) (code : Byte) (q : Req) (r : Reply) : State :=
  { s with link := s.link.setCell (replyBytes code q r) }

/-- A request addressed to this node is carried out or refused, and its reply is written (R147, R149). -/
def State.execute (s : State) (c : RequestCode) (q : Req) : State :=
  (c.run q s).1.writeReply c.byte q (c.run q s).2

/-- A cell of Kind REQUEST with a known Code, handed to the Agent: executed at the node whose position it
names; as a broadcast, executed without a reply or counted as a bad broadcast; passed unaltered by any other
node (R146, R148). -/
def State.agentRequest (s : State) (c : RequestCode) (q : Req) : State :=
  if q.destination = s.link.position then s.execute c q
  else if q.destination = 255 then
    if c.broadcastAllowed q.object then (c.run q s).1 else s.setBadBroadcast
  else s

/-- A cell of Kind REQUEST with a Code that names no request: answered UNKNOWN, or a bad broadcast (R149, R148,
R182). -/
def State.agentUnknown (s : State) (code : Byte) (q : Req) : State :=
  if q.destination = s.link.position then s.writeReply code q (answer q .unknown)
  else if q.destination = 255 then s.setBadBroadcast
  else s

/-- A cell handed to the Agent, by its Kind: a Kind other than REQUEST is passed unaltered (R146, R182). -/
def State.agentCell (s : State) (kind code : Byte) (q : Req) : State :=
  if kind = 0x01 then
    match requestOf code with
    | some c => s.agentRequest c q
    | none => s.agentUnknown code q
  else s

/-- The Link Framer hands a cell to the Agent: the cell's sixteenth byte is the last symbol that has arrived of
a frame in flight, and the position is 1 to 250 (R19, R147). -/
def State.handsCell (s : State) : Bool :=
  match s.link.state, s.link.frame with
  | .locked, .good 24 _ => decide (s.link.position ≠ 0 ∧ s.link.position.toNat ≤ 250)
  | _, _ => false

/-- The command of a request row: the Agent is handed a cell of Kind REQUEST with this Code and these fields;
where no cell is handed to it, the request is not executed (R19, R146; log 4). -/
def State.request (s : State) (c : RequestCode) (q : Req) : State :=
  if s.handsCell then s.agentRequest c q else s

/-! ## The request rows -/

/-- READ_IDENTITY (R152). -/
def execReadIdentity (q : Req) (s : State) : Host.Outcome State Fault Refusal :=
  .next (s.request .readIdentity q)

/-- READ_STATUS (R153). -/
def execReadStatus (q : Req) (s : State) : Host.Outcome State Fault Refusal :=
  .next (s.request .readStatus q)

/-- SET_NODE (R154). -/
def execSetNode (q : Req) (s : State) : Host.Outcome State Fault Refusal :=
  .next (s.request .setNode q)

/-- READ_NODE (R154). -/
def execReadNode (q : Req) (s : State) : Host.Outcome State Fault Refusal :=
  .next (s.request .readNode q)

/-- WRITE_ENTRY (R35, R36). -/
def execWriteEntry (q : Req) (s : State) : Host.Outcome State Fault Refusal :=
  .next (s.request .writeEntry q)

/-- READ_ENTRY (R37). -/
def execReadEntry (q : Req) (s : State) : Host.Outcome State Fault Refusal :=
  .next (s.request .readEntry q)

/-- TRUNCATE_BANK (R38). -/
def execTruncateBank (q : Req) (s : State) : Host.Outcome State Fault Refusal :=
  .next (s.request .truncateBank q)

/-- CLEAR_BANK (R39). -/
def execClearBank (q : Req) (s : State) : Host.Outcome State Fault Refusal :=
  .next (s.request .clearBank q)

/-- COPY_BANK (R41). -/
def execCopyBank (q : Req) (s : State) : Host.Outcome State Fault Refusal :=
  .next (s.request .copyBank q)

/-- COMMIT_BANK (R43). -/
def execCommitBank (q : Req) (s : State) : Host.Outcome State Fault Refusal :=
  .next (s.request .commitBank q)

/-- WRITE_CHANNEL_OUTPUT (R85, R156). -/
def execWriteChannelOutput (q : Req) (s : State) : Host.Outcome State Fault Refusal :=
  .next (s.request .writeChannel { q with object := 0x00 })

/-- WRITE_CHANNEL_LEVEL (R84, R156). -/
def execWriteChannelLevel (q : Req) (s : State) : Host.Outcome State Fault Refusal :=
  .next (s.request .writeChannel { q with object := 0x01 })

/-- WRITE_CHANNEL_TRIGGER (R84, R156). -/
def execWriteChannelTrigger (q : Req) (s : State) : Host.Outcome State Fault Refusal :=
  .next (s.request .writeChannel { q with object := 0x02 })

/-- READ_CHANNEL (R156). -/
def execReadChannel (q : Req) (s : State) : Host.Outcome State Fault Refusal :=
  .next (s.request .readChannel q)

/-- WRITE_CURVE (R89, R157). -/
def execWriteCurve (q : Req) (s : State) : Host.Outcome State Fault Refusal :=
  .next (s.request .writeCurve q)

/-- READ_CURVE (R89, R157). -/
def execReadCurve (q : Req) (s : State) : Host.Outcome State Fault Refusal :=
  .next (s.request .readCurve q)

/-- WRITE_SENSE_LINE (R143, R158). -/
def execWriteSenseLine (q : Req) (s : State) : Host.Outcome State Fault Refusal :=
  .next (s.request .writeSense q)

/-- WRITE_SENSE_GLOBAL (R143, R158). -/
def execWriteSenseGlobal (q : Req) (s : State) : Host.Outcome State Fault Refusal :=
  .next (s.request .writeSense { q with index := 8 })

/-- READ_SENSE (R144, R158). -/
def execReadSense (q : Req) (s : State) : Host.Outcome State Fault Refusal :=
  .next (s.request .readSense q)

/-- SET_OVERRIDE_BLACKOUT (R98, R159). -/
def execSetOverrideBlackout (q : Req) (s : State) : Host.Outcome State Fault Refusal :=
  .next (s.request .setOverride { q with object := 0x00 })

/-- SET_OVERRIDE_TEST_FULL (R98, R159). -/
def execSetOverrideTestFull (q : Req) (s : State) : Host.Outcome State Fault Refusal :=
  .next (s.request .setOverride { q with object := 0x01 })

/-- SET_OVERRIDE_PARK (R99, R159). -/
def execSetOverridePark (q : Req) (s : State) : Host.Outcome State Fault Refusal :=
  .next (s.request .setOverride { q with object := 0x02 })

/-- FREEZE (R100, R160). -/
def execFreeze (q : Req) (s : State) : Host.Outcome State Fault Refusal :=
  .next (s.request .freeze q)

/-- THAW (R100, R160). -/
def execThaw (q : Req) (s : State) : Host.Outcome State Fault Refusal :=
  .next (s.request .thaw q)

/-- CLEAR_INTERLOCK (R140, R160). -/
def execClearInterlock (q : Req) (s : State) : Host.Outcome State Fault Refusal :=
  .next (s.request .clearInterlock q)

/-- FETCH_EVENT (R161). -/
def execFetchEvent (q : Req) (s : State) : Host.Outcome State Fault Refusal :=
  .next (s.request .fetchEvent q)

/-- READ_FLAGS (R162). -/
def execReadFlags (q : Req) (s : State) : Host.Outcome State Fault Refusal :=
  .next (s.request .readFlags q)

/-- CLEAR_FLAGS (R162). -/
def execClearFlags (q : Req) (s : State) : Host.Outcome State Fault Refusal :=
  .next (s.request .clearFlags q)

/-- SET_REPORT_MASK (R163). -/
def execSetReportMask (q : Req) (s : State) : Host.Outcome State Fault Refusal :=
  .next (s.request .setReportMask q)

/-- READ_COUNTERS (R164). -/
def execReadCounters (q : Req) (s : State) : Host.Outcome State Fault Refusal :=
  .next (s.request .readCounters q)

/-- RESET_NODE_OUTPUTS (R165). -/
def execResetNodeOutputs (q : Req) (s : State) : Host.Outcome State Fault Refusal :=
  .next (s.request .resetNode { q with object := 0x00 })

/-- RESET_NODE_TABLES (R165). -/
def execResetNodeTables (q : Req) (s : State) : Host.Outcome State Fault Refusal :=
  .next (s.request .resetNode { q with object := 0x01 })

/-- RESET_NODE_EVENTS (R165). -/
def execResetNodeEvents (q : Req) (s : State) : Host.Outcome State Fault Refusal :=
  .next (s.request .resetNode { q with object := 0x02 })

/-- RESET_NODE_SCOPE_NODE (R165). -/
def execResetNodeScopeNode (q : Req) (s : State) : Host.Outcome State Fault Refusal :=
  .next (s.request .resetNode { q with object := 0x03 })

end Sys2Proof.Machine
end

