-- ==== Sys2Proof/Machine/Link.lean ====
section
/-! DEFINITION. The Link Framer (spec/01): what it does with each symbol that arrives, the end of a frame, the
link states, the frame timeout and the downstream port; and the commands of these steps. -/

namespace Sys2Proof.Machine

/-! ## The end of a frame -/

/-- A frame in flight is truncated: counted, its FILLING buffer freed, and a pending reset applied at this end
of its frame (R17, R73, R166). The symbol sent in place of its rest is the caller's. -/
def State.truncate (s : State) : State :=
  State.endFrame
    { s with
      link := { s.link with frame := .between, truncatedFrames := countUp s.link.truncatedFrames },
      slot := s.slot.endBad }

/-- The second frame-check byte of a frame in flight arrives (R18): the check over the sent bytes leaves, or its
complement when the received check is incorrect; the frame clock or the error counter counts, the buffer is
handed on or freed, and a pending reset is applied (R27, R72, R73, R166). -/
def State.endChecked (s : State) (b : Byte) : State :=
  let correct := word16 s.link.checkByte b == s.link.receivedCheck
  let check := if correct then s.link.sentCheck else ~~~s.link.sentCheck
  let put := (s.link.put (.data b)).substitute [hiByte check, loByte check]
  State.endFrame
    { s with
      link :=
        if correct then { put with frame := .between, frameClock := put.frameClock + 1 }
        else { put with frame := .between, frameCheckErrors := countUp put.frameCheckErrors },
      slot := if correct then s.slot.endGood else s.slot.endBad }

/-! ## Headers -/

/-- The link leaves LOCKED for HUNT at the third consecutive bad header (R12, R13, R77). -/
def State.leaveForHunt (s : State) : State :=
  State.raise
    { s with link := { s.link with state := .hunt, badHeaders := 0 }, slot := s.slot.freeBoth }
    (.linkState .locked .hunt)

/-- The expected frame index past a bad header (R21). -/
def indexPast (expected heldLast : Byte) : Byte := if expected = heldLast then 0 else expected + 1

/-- A header has proved bad (R9, R10, R12): counted, the frame runs on to the next marker, and the link state
follows. -/
def State.badHeader (s : State) : State :=
  let counted := { s.link with frame := .bad, headerErrors := countUp s.link.headerErrors }
  match s.link.state with
  | .down => s
  | .hunt => { s with link := counted }
  | .verify => { s with link := { counted with state := .hunt } }
  | .locked =>
    let next := { s with link := { counted with
      badHeaders := counted.badHeaders + 1, expected := indexPast counted.expected counted.heldLast } }
    if 3 ≤ next.link.badHeaders then next.leaveForHunt else next

/-- The stale stage and cause after a raised stale count, and the event raised (R25). -/
def LinkFramer.evaluateStale (l : LinkFramer) (p : NodeParams) : LinkFramer × Option Event :=
  if p.staleLimit ≠ 0 ∧ p.staleLimit.toNat ≤ l.staleCount ∧ l.staleStage < 2 then
    ({ l with staleStage := 2, staleCause := true }, some (.heartbeat 2 l.staleCount))
  else if p.staleWarn ≠ 0 ∧ p.staleWarn.toNat ≤ l.staleCount ∧ l.staleStage = 0 then
    ({ l with staleStage := 1 }, some (.heartbeat 1 l.staleCount))
  else (l, none)

/-- The heartbeat watch at a boundary (R24). -/
def LinkFramer.watch (l : LinkFramer) (p : NodeParams) (heartbeat : Byte) : LinkFramer × Option Event :=
  match l.reference with
  | none => ({ l with reference := some heartbeat }, none)
  | some reference =>
    if reference = heartbeat then
      { l with staleCount := min (l.staleCount + 1) 255 }.evaluateStale p
    else if l.staleStage = 0 then ({ l with reference := some heartbeat, staleCount := 0 }, none)
    else
      ({ l with reference := some heartbeat, staleCount := 0, staleStage := 0, staleCause := false },
        some (.heartbeat 0 l.staleCount))

/-- Two blocks raise an event each, or not, in one step that leaves their order open (R172): where both do, a
free value gives the order (log 1). -/
def State.raiseEither (s : State) (first second : Option Event) : State :=
  match first, second with
  | some e, some f =>
    let counted := { s with choices := s.choices + 1 }
    if Config.firstRaisedFirst s.choices then (counted.raise e).raise f else (counted.raise f).raise e
  | first, second => (s.raise? first).raise? second

/-- A superframe boundary: the Bank goes to the Map Store and the Heartbeat to the watch (R22). -/
def State.boundary (s : State) (h : Header) : State :=
  let swap := s.map.boundary h.bank
  let watch := s.link.watch s.agent.params h.heartbeat
  { s with map := swap.1, link := watch.1 }.raiseEither swap.2 watch.2

/-- The good header of a frame: it is known from here how far the frame runs, and its Last Index is held (R4,
R5). -/
def LinkFramer.acceptHeader (l : LinkFramer) (h : Header) : LinkFramer :=
  { l with frame := .good 8 h.slotCount, heldLast := h.lastIndex, cell := [] }

/-- A header handled as VERIFY and LOCKED handle it: regenerated, and it sets the position and the expected
index (R15, R20, R21). -/
def LinkFramer.followHeader (l : LinkFramer) (h : Header) : LinkFramer :=
  { (l.acceptHeader h).substitute (regenerated l.header) with
    position := positionOf h.hopCount, expected := nextIndex h.frameIndex h.lastIndex }

/-- A header that has been taken in LOCKED: the boundary when its Frame Index is 0, then the acting-frame
decision (R22, R56). -/
def State.afterLockedHeader (s : State) (h : Header) : State :=
  (if h.frameIndex = 0 then s.boundary h else s).decideActing

/-- A good header moves VERIFY to LOCKED (R11). -/
def State.enterLocked (s : State) (h : Header) : State :=
  let link := { (s.link.followHeader h).restartWatch with
    state := .locked, badHeaders := 0, heldBlackout := h.blackout }
  ({ s with link := link }.raise (.linkState .verify .locked)).afterLockedHeader h

/-- A good header in LOCKED (R12, R20, R21, R23). -/
def State.lockedHeader (s : State) (h : Header) : State :=
  let slip := h.frameIndex ≠ s.link.expected
  let followed := s.link.followHeader h
  let link := { followed with
    badHeaders := 0, heldBlackout := h.blackout,
    indexSlips := if slip then countUp followed.indexSlips else followed.indexSlips }
  let moved := { s with link := link }
  ((moved.raise?
      (if link.position ≠ s.link.position then some (.positionChanged s.link.position link.position)
        else none)).raise?
      (if slip then some (.indexSlip s.link.expected h.frameIndex) else none)).afterLockedHeader h

/-- A good header, by the link state at its arrival (R9, R10, R11, R12). -/
def State.takeHeader (s : State) (h : Header) : State :=
  match s.link.state with
  | .down => s
  | .hunt => { s with link := { s.link.followHeader h with state := .verify } }
  | .verify =>
    if h.frameIndex = s.link.expected then s.enterLocked h
    else { s with link := { s.link.acceptHeader h with state := .hunt } }
  | .locked => s.lockedHeader h

/-- The eighth header byte arrives and the header is judged (R5). -/
def State.headerEighth (s : State) (b : Byte) : State :=
  let arrived := { s with link := { s.link.put (.data b) with header := s.link.header ++ [b] } }
  match goodHeader arrived.link.header with
  | some h => arrived.takeHeader h
  | none => arrived.badHeader

/-- One of the first seven header bytes arrives. -/
def State.headerByte (s : State) (b : Byte) : State :=
  { s with link := { s.link.put (.data b) with header := s.link.header ++ [b] } }

/-! ## Bytes of a frame in flight -/

/-- The frame in progress has come to a position. -/
def LinkFramer.at (l : LinkFramer) (place slots : Nat) : LinkFramer := { l with frame := .good place slots }

/-- One of the first fifteen cell bytes of a frame in flight arrives. -/
def State.cellByte (s : State) (b : Byte) (place slots : Nat) : State :=
  { s with link := { (s.link.put (.data b)).at place slots with cell := s.link.cell ++ [b] } }

/-- The last cell byte of a frame in flight arrives (R19): the cell check is evaluated; a correct cell is handed
to the Agent at position 1 to 250, and any other leaves as received. The frame check starts over the cell as
received and as sent (R18). -/
def State.cellLast (s : State) (b : Byte) (slots : Nat) : State :=
  let bytes := s.link.cell ++ [b]
  let arrived := { s with link := { (s.link.put (.data b)).at 24 slots with
    cell := bytes, receivedCheck := crc16 bytes, sentCheck := crc16 bytes } }
  match cellOf bytes with
  | none =>
    { arrived with link := { arrived.link with cellCheckErrors := countUp arrived.link.cellCheckErrors } }
  | some (kind, code, q) => if arrived.handsCell then arrived.agentCell kind code q else arrived

/-- A slot byte of a frame in flight arrives: the slot actions, and both checks over it (R59, R62, R18). -/
def State.slotByte (s : State) (b : Byte) (place slots : Nat) : State :=
  let acted := s.slotActions (place - 25) b
  { acted.1 with link := { (acted.1.link.put (.data acted.2)).at place slots with
    receivedCheck := crc16Byte s.link.receivedCheck b, sentCheck := crc16Byte s.link.sentCheck acted.2 } }

/-- The first frame-check byte of a frame in flight arrives (R18). -/
def State.checkByte (s : State) (b : Byte) (place slots : Nat) : State :=
  { s with link := { (s.link.put (.data b)).at place slots with checkByte := b } }

/-- A byte of a frame in flight arrives at a position (R4, section 1.2). -/
def State.flightByte (s : State) (b : Byte) (place slots : Nat) : State :=
  if place < 24 then s.cellByte b place slots
  else if place = 24 then s.cellLast b slots
  else if place < 25 + slots then s.slotByte b place slots
  else if place = 25 + slots then s.checkByte b place slots
  else s.endChecked b

/-- A byte of a frame with a good header arrives outside LOCKED: it leaves as received, and the frame ends with
its second frame-check byte (R9, R10). -/
def State.passByte (s : State) (b : Byte) (place slots : Nat) : State :=
  let put := s.link.put (.data b)
  { s with link := if place < 26 + slots then put.at place slots else { put with frame := .between } }

/-- A symbol between frames: sent as idle in VERIFY and LOCKED, as received in HUNT (R16, R9). -/
def State.betweenSymbol (s : State) (sym : Sym) : State :=
  { s with link := s.link.put (if s.link.state = .hunt then sym else .idle) }

/-- A data byte arrives: handled by the link state and its position in the frame (R3, R4, R7, R14). -/
def State.receiveByte (s : State) (b : Byte) : State :=
  if s.link.state = .down then s
  else
    match s.link.frame with
    | .between => s.betweenSymbol (.data b)
    | .header => if s.link.header.length < 7 then s.headerByte b else s.headerEighth b
    | .bad => { s with link := s.link.put (.data b) }
    | .good last slots =>
      if s.link.state = .locked then s.flightByte b (last + 1) slots else s.passByte b (last + 1) slots

/-- An abort marker or an idle symbol arrives (R4, R16, R17): it ends a good frame early, makes an incomplete
header bad, or belongs to a bad-header frame. In place of either, an abort marker leaves at a truncation. -/
def State.receiveEnd (s : State) (sym : Sym) : State :=
  if s.link.state = .down then s
  else
    match s.link.frame with
    | .between => s.betweenSymbol sym
    | .header => { s with link := s.link.put sym }.badHeader
    | .bad => { s with link := s.link.put sym }
    | .good _ _ =>
      if s.link.state = .locked then { s with link := s.link.put .abort }.truncate
      else { s with link := { s.link.put sym with frame := .between } }

/-- The end a frame-start marker puts to the frame in progress (R4): a truncation in flight, a bad header when
the header is incomplete. -/
def State.endForMarker (s : State) : State :=
  match s.link.frame with
  | .between => s
  | .header => s.badHeader
  | .bad => s
  | .good _ _ => if s.link.state = .locked then s.truncate else s

/-- A frame begins at its marker: the frame timeout is reloaded, DOWN moves to HUNT, and the marker is
forwarded (R4, R7, R8, R16). -/
def State.beginFrame (s : State) : State :=
  { s with link := { s.link.put .marker with
    state := if s.link.state = .down then .hunt else s.link.state,
    frame := .header, header := [],
    timeout := some (timeoutTicks s.agent.params.frameTimeout) } }

/-! ## The frame timeout -/

/-- The frame timeout expires here: its last base tick has been counted, or the coming base tick counts it and
the expiry is taken first (R8). -/
def LinkFramer.expires (l : LinkFramer) : Bool := l.timeout.any fun left => decide (left ≤ 1)

/-- The link moves to DOWN: the timeout is stopped, what was received and not yet sent is discarded, and
an abort marker is sent next when a frame in flight was truncated (R8, R17). -/
def LinkFramer.goDown (l : LinkFramer) (truncated : Bool) : LinkFramer :=
  { l with state := .down, frame := .between, timeout := none, delay := [], badHeaders := 0,
           abortNext := l.abortNext || truncated }

/-- LINK_STATE at an expiry in LOCKED, and the end of the frame in flight with its pending reset: where a record is
placed at the reset the order is open (R168, R172), and a free value gives it (log 1). -/
def State.unlockForTimeout (s : State) : State :=
  let ended := fun t : State => if t.link.inFlight then t.truncate else t
  let raised := fun t : State => t.raise (.linkState .locked .down)
  match s.agent.resetScope.bind s.raisedByReset with
  | none => ended (raised s)
  | some _ =>
    let counted := { s with choices := s.choices + 1 }
    if Config.firstRaisedFirst s.choices then ended (raised counted) else raised (ended counted)

/-- The frame timeout expires (R8, R13, R77). -/
def State.expire (s : State) : State :=
  match s.link.state with
  | .down => s
  | .locked =>
    let unlocked := s.unlockForTimeout
    { unlocked with link := unlocked.link.goDown s.link.inFlight, slot := unlocked.slot.freeBoth }
  | .hunt => { s with link := s.link.goDown false }
  | .verify => { s with link := s.link.goDown false }

/-! ## The downstream port -/

/-- One byte time of the downstream port (R14, R7, R17): an abort marker owed at a timeout, else the oldest
symbol once twenty byte times have gone since it arrived, else idle. -/
def LinkFramer.send (l : LinkFramer) : LinkFramer :=
  if l.abortNext then { l with abortNext := false, linkOut := .abort }
  else if delayByteTimes < l.delay.length then
    { l with delay := l.delay.drop 1, linkOut := l.delay.headD .idle }
  else { l with linkOut := .idle }

/-! ## Commands -/

/-- POWER_ON (R2). -/
def execPowerOn (sns : Byte) (s : State) : Host.Outcome State Fault Refusal := .next (s.restart sns)

/-- RESET_N_RELEASE: the effect of power-on (R1). -/
def execResetNRelease (sns : Byte) (s : State) : Host.Outcome State Fault Refusal := .next (s.restart sns)

/-- FRAME_START_MARKER_ARRIVAL (R4). -/
def execFrameStartMarkerArrival (sns : Byte) (s : State) : Host.Outcome State Fault Refusal :=
  .next (s.setPins sns).endForMarker.beginFrame

/-- DATA_BYTE_ARRIVAL (R14). -/
def execDataByteArrival (b : Byte) (s : State) : Host.Outcome State Fault Refusal :=
  .next (s.receiveByte b)

/-- HEADER_EIGHTH_BYTE_ARRIVAL: the data byte that is the header's eighth (R5). Like every data byte it is
handled by its place in the frame (log 5). -/
def execHeaderEighthByteArrival (b : Byte) (s : State) : Host.Outcome State Fault Refusal :=
  .next (s.receiveByte b)

/-- CELL_LAST_BYTE_ARRIVAL: the data byte that is the cell's sixteenth (R19; log 5). -/
def execCellLastByteArrival (b : Byte) (s : State) : Host.Outcome State Fault Refusal :=
  .next (s.receiveByte b)

/-- SLOT_ARRIVAL: the data byte that is a slot (R59; log 5). -/
def execSlotArrival (b : Byte) (s : State) : Host.Outcome State Fault Refusal := .next (s.receiveByte b)

/-- FRAME_CHECK_SECOND_BYTE_ARRIVAL: the data byte that ends its frame (R18; log 5). -/
def execFrameCheckSecondByteArrival (b sns : Byte) (s : State) : Host.Outcome State Fault Refusal :=
  .next ((s.setPins sns).receiveByte b)

/-- ABORT_MARKER_ARRIVAL (R17). -/
def execAbortMarkerArrival (sns : Byte) (s : State) : Host.Outcome State Fault Refusal :=
  .next ((s.setPins sns).receiveEnd .abort)

/-- IDLE_ARRIVAL: an idle symbol, or one that decodes as none of the kinds (R17, R3). -/
def execIdleArrival (sns : Byte) (s : State) : Host.Outcome State Fault Refusal :=
  .next ((s.setPins sns).receiveEnd .idle)

/-- SYMBOL_SEND (R14). -/
def execSymbolSend (s : State) : Host.Outcome State Fault Refusal := .next { s with link := s.link.send }

/-- FRAME_TIMEOUT_EXPIRY (R8). Where the frame timeout does not expire here, nothing happens (log 6). -/
def execFrameTimeoutExpiry (sns : Byte) (s : State) : Host.Outcome State Fault Refusal :=
  .next (if s.link.expires then (s.setPins sns).expire else s.setPins sns)

end Sys2Proof.Machine
end

