-- ==== Sys2Proof/Machine/Dispatch.lean ====
section
/-! DEFINITION. One arm per command: the meaning it has. -/

namespace Sys2Proof.Machine

def exec (i : Instr) (s : State) : Host.Outcome State Fault Refusal :=
  match i with
  | .powerOn sns => Sys2Proof.Machine.execPowerOn sns s
  | .resetNRelease sns => Sys2Proof.Machine.execResetNRelease sns s
  | .frameStartMarkerArrival sns => Sys2Proof.Machine.execFrameStartMarkerArrival sns s
  | .dataByteArrival b => Sys2Proof.Machine.execDataByteArrival b s
  | .headerEighthByteArrival b => Sys2Proof.Machine.execHeaderEighthByteArrival b s
  | .cellLastByteArrival b => Sys2Proof.Machine.execCellLastByteArrival b s
  | .slotArrival b => Sys2Proof.Machine.execSlotArrival b s
  | .frameCheckSecondByteArrival b sns => Sys2Proof.Machine.execFrameCheckSecondByteArrival b sns s
  | .abortMarkerArrival sns => Sys2Proof.Machine.execAbortMarkerArrival sns s
  | .idleArrival sns => Sys2Proof.Machine.execIdleArrival sns s
  | .symbolSend => Sys2Proof.Machine.execSymbolSend s
  | .frameTimeoutExpiry sns => Sys2Proof.Machine.execFrameTimeoutExpiry sns s
  | .baseTick sns => Sys2Proof.Machine.execBaseTick sns s
  | .stepTick => Sys2Proof.Machine.execStepTick s
  | .periodEnd channel => Sys2Proof.Machine.execPeriodEnd channel s
  | .dimDutyEnd channel => Sys2Proof.Machine.execDimDutyEnd channel s
  | .copyEntryCopied => Sys2Proof.Machine.execCopyEntryCopied s
  | .copyComplete part => Sys2Proof.Machine.execCopyComplete s part
  | .commitEntryExamined => Sys2Proof.Machine.execCommitEntryExamined s
  | .commitComplete part => Sys2Proof.Machine.execCommitComplete s part
  | .readIdentity q => Sys2Proof.Machine.execReadIdentity q s
  | .readStatus q => Sys2Proof.Machine.execReadStatus q s
  | .setNode q => Sys2Proof.Machine.execSetNode q s
  | .readNode q => Sys2Proof.Machine.execReadNode q s
  | .writeEntry q => Sys2Proof.Machine.execWriteEntry q s
  | .readEntry q => Sys2Proof.Machine.execReadEntry q s
  | .truncateBank q => Sys2Proof.Machine.execTruncateBank q s
  | .clearBank q => Sys2Proof.Machine.execClearBank q s
  | .copyBank q => Sys2Proof.Machine.execCopyBank q s
  | .commitBank q => Sys2Proof.Machine.execCommitBank q s
  | .writeChannelOutput q => Sys2Proof.Machine.execWriteChannelOutput q s
  | .writeChannelLevel q => Sys2Proof.Machine.execWriteChannelLevel q s
  | .writeChannelTrigger q => Sys2Proof.Machine.execWriteChannelTrigger q s
  | .readChannel q => Sys2Proof.Machine.execReadChannel q s
  | .writeCurve q => Sys2Proof.Machine.execWriteCurve q s
  | .readCurve q => Sys2Proof.Machine.execReadCurve q s
  | .writeSenseLine q => Sys2Proof.Machine.execWriteSenseLine q s
  | .writeSenseGlobal q => Sys2Proof.Machine.execWriteSenseGlobal q s
  | .readSense q => Sys2Proof.Machine.execReadSense q s
  | .setOverrideBlackout q => Sys2Proof.Machine.execSetOverrideBlackout q s
  | .setOverrideTestFull q => Sys2Proof.Machine.execSetOverrideTestFull q s
  | .setOverridePark q => Sys2Proof.Machine.execSetOverridePark q s
  | .freeze q => Sys2Proof.Machine.execFreeze q s
  | .thaw q => Sys2Proof.Machine.execThaw q s
  | .clearInterlock q => Sys2Proof.Machine.execClearInterlock q s
  | .fetchEvent q => Sys2Proof.Machine.execFetchEvent q s
  | .readFlags q => Sys2Proof.Machine.execReadFlags q s
  | .clearFlags q => Sys2Proof.Machine.execClearFlags q s
  | .setReportMask q => Sys2Proof.Machine.execSetReportMask q s
  | .readCounters q => Sys2Proof.Machine.execReadCounters q s
  | .resetNodeOutputs q => Sys2Proof.Machine.execResetNodeOutputs q s
  | .resetNodeTables q => Sys2Proof.Machine.execResetNodeTables q s
  | .resetNodeEvents q => Sys2Proof.Machine.execResetNodeEvents q s
  | .resetNodeScopeNode q => Sys2Proof.Machine.execResetNodeScopeNode q s
  | .pwmClock channel => Sys2Proof.Machine.execPwmClock channel s

end Sys2Proof.Machine
end

