-- ==== Sys2Proof/Safety.lean ====
section
/-! DEFINITION. What it means that the machine is in order: the invariants of each block that the rules lay
down, and the situations that the statements about commands name. -/

namespace Sys2Proof.Machine

/-! ## Situations -/

/-- The Agent holds a handed cell: the link is LOCKED, the last symbol that arrived is the sixteenth cell byte of
a frame with a good header, and the position is 1 to 250 (R19, R146). -/
def State.cellHanded (s : State) : Prop :=
  s.link.state = .locked ∧ (∃ slots, s.link.frame = .good 24 slots)
    ∧ s.link.position ≠ 0 ∧ s.link.position.toNat ≤ 250

/-- A request is handed to the Agent and names this node's position (R146). -/
def State.addressed (s : State) (q : Req) : Prop := s.cellHanded ∧ q.destination = s.link.position

/-- A request is handed to the Agent as a broadcast (R148). -/
def State.broadcast (s : State) (q : Req) : Prop := s.cellHanded ∧ q.destination = 255

/-- The request that a row carries, with its Code and with the Object or Index that the row's name gives; none for
the rows that are no requests. -/
def requestRow : Instr → Option (RequestCode × Req)
  | .readIdentity q => some (.readIdentity, q)
  | .readStatus q => some (.readStatus, q)
  | .setNode q => some (.setNode, q)
  | .readNode q => some (.readNode, q)
  | .writeEntry q => some (.writeEntry, q)
  | .readEntry q => some (.readEntry, q)
  | .truncateBank q => some (.truncateBank, q)
  | .clearBank q => some (.clearBank, q)
  | .copyBank q => some (.copyBank, q)
  | .commitBank q => some (.commitBank, q)
  | .writeChannelOutput q => some (.writeChannel, { q with object := 0x00 })
  | .writeChannelLevel q => some (.writeChannel, { q with object := 0x01 })
  | .writeChannelTrigger q => some (.writeChannel, { q with object := 0x02 })
  | .readChannel q => some (.readChannel, q)
  | .writeCurve q => some (.writeCurve, q)
  | .readCurve q => some (.readCurve, q)
  | .writeSenseLine q => some (.writeSense, q)
  | .writeSenseGlobal q => some (.writeSense, { q with index := 8 })
  | .readSense q => some (.readSense, q)
  | .setOverrideBlackout q => some (.setOverride, { q with object := 0x00 })
  | .setOverrideTestFull q => some (.setOverride, { q with object := 0x01 })
  | .setOverridePark q => some (.setOverride, { q with object := 0x02 })
  | .freeze q => some (.freeze, q)
  | .thaw q => some (.thaw, q)
  | .clearInterlock q => some (.clearInterlock, q)
  | .fetchEvent q => some (.fetchEvent, q)
  | .readFlags q => some (.readFlags, q)
  | .clearFlags q => some (.clearFlags, q)
  | .setReportMask q => some (.setReportMask, q)
  | .readCounters q => some (.readCounters, q)
  | .resetNodeOutputs q => some (.resetNode, { q with object := 0x00 })
  | .resetNodeTables q => some (.resetNode, { q with object := 0x01 })
  | .resetNodeEvents q => some (.resetNode, { q with object := 0x02 })
  | .resetNodeScopeNode q => some (.resetNode, { q with object := 0x03 })
  | _ => none

/-! ## The Map Store -/

/-- The entries of a READY bank: in non-decreasing slot order, with at most one INSERT for any slot (R31). -/
def Bank.validated (bank : Bank) : Prop :=
  bank.entries.Pairwise (fun e f => e.slot ≤ f.slot)
    ∧ bank.entries.Pairwise (fun e f => ¬ (e.isInsert = true ∧ f.isInsert = true ∧ e.slot = f.slot))

/-- A bank in order: at most 128 entries; no entries in EMPTY; validated in READY (R29, R31, R32). -/
def Bank.inOrder (bank : Bank) : Prop :=
  bank.count ≤ 128 ∧ (bank.state = .empty → bank.entries = []) ∧ (bank.state = .ready → bank.validated)

/-- The table operation unit in order (R40 to R44): idle with no bank COPYING or CHECKING; or a COPY to the shadow,
which is COPYING and holds the entries copied so far; or a COMMIT of the shadow, which is CHECKING, with no fault
below the progress index and, once stopped, the fault found at it. -/
def MapStore.unitInOrder (m : MapStore) : Prop :=
  match m.op with
  | none => ∀ name, (m.bank name).state ≠ .copying ∧ (m.bank name).state ≠ .checking
  | some op =>
    op.target = m.active.other ∧
      match op.kind with
      | .copy =>
        (m.bank op.target).state = .copying ∧ op.found = none
          ∧ op.progress ≤ (m.bank m.active).count
          ∧ (m.bank op.target).entries = (m.bank m.active).entries.take op.progress
      | .commit =>
        (m.bank op.target).state = .checking ∧ op.progress ≤ (m.bank op.target).count
          ∧ (∀ i, i < op.progress → commitFault (m.bank op.target).entries i = none)
          ∧ ∀ fault, op.found = some fault →
              commitFault (m.bank op.target).entries op.progress = some fault

/-- The Map Store in order: both banks, the unit, and an active bank that is EMPTY or READY (R32, R40). -/
def MapStore.inOrder (m : MapStore) : Prop :=
  m.bankA.inOrder ∧ m.bankB.inOrder ∧ m.unitInOrder
    ∧ ((m.bank m.active).state = .empty ∨ (m.bank m.active).state = .ready)

/-! ## The frame in progress and the staging buffers -/

/-- The frame in progress is in order: fewer than eight header bytes while the header arrives; a place from 8 to
that of the first check byte, and a Slot Count of 16 to 512, in a frame with a good header; and in LOCKED the cell
bytes that have arrived (R4, R5). No symbol of its header has left before the header is complete, nor of its cell
before the cell is: the delay line still holds the symbols of the frame, or at least twenty (R14). -/
def LinkFramer.frameInOrder (l : LinkFramer) : Prop :=
  match l.frame with
  | .between => True
  | .header => l.header.length < 8 ∧ l.header.length < l.delay.length
  | .good place slots =>
    8 ≤ place ∧ place ≤ 25 + slots ∧ 16 ≤ slots ∧ slots ≤ 512 ∧ min (place + 1) 20 ≤ l.delay.length
      ∧ (l.state = .locked → l.cell.length = min (place - 8) 16)
  | .bad => True

/-- The link in order: in DOWN no frame, no timeout and nothing to send; a position of at most 250; a
consecutive-bad-header count below 3, and 0 outside LOCKED (R7, R8, R12, R13, R20). -/
def LinkFramer.inOrder (l : LinkFramer) : Prop :=
  l.frameInOrder
    ∧ (l.state = .down → l.frame = .between ∧ l.timeout = none ∧ l.delay = [])
    ∧ l.position.toNat ≤ 250 ∧ l.badHeaders < 3 ∧ (l.state ≠ .locked → l.badHeaders = 0)

/-- The staging buffers in order: at most one FILLING and one PENDING (R71); one is FILLING exactly while an acting
frame is in progress (R58, R72, R73); both are FREE outside LOCKED (R77). -/
def SlotEngine.inOrder (e : SlotEngine) (l : LinkFramer) : Prop :=
  ¬ (e.x.state = .filling ∧ e.y.state = .filling) ∧ ¬ (e.x.state = .pending ∧ e.y.state = .pending)
    ∧ (e.acting = true ↔ e.x.state = .filling ∨ e.y.state = .filling)
    ∧ (e.acting = true → l.inFlight = true)
    ∧ (l.state ≠ .locked → e.x.state = .free ∧ e.y.state = .free)

/-- The link, the staging buffers and the pending reset in order: a reset is pending only while its frame is in
flight (R165). -/
def State.framingInOrder (s : State) : Prop :=
  s.link.inOrder ∧ s.slot.inOrder s.link ∧ (s.agent.resetScope ≠ none → s.link.inFlight = true)

/-! ## Channels and generators -/

/-- A channel record in order: the ranges that the writes keep (R84, R85), and demanded level 0 while disabled
(R86, R95). -/
def Channel.inOrder (c : Channel) : Prop :=
  16 ≤ c.period.toNat ∧ c.phase.toNat < c.period.toNat ∧ c.offThreshold.toNat < c.onThreshold.toNat
    ∧ 1 ≤ c.pulseWidth.toNat ∧ (c.enabled = false → c.demanded = 0)

/-- The items that every mode keeps: the counter within the Running Period; the Period field of the channel is the
Pending Period when one is present and the Running Period otherwise; the Active Duty is that of the Applied Level
(R104, R106, R107, R108). -/
def Generator.periodInOrder (g : Generator) (c : Channel) : Prop :=
  16 ≤ g.runningPeriod.toNat ∧ g.counter < g.runningPeriod.toNat
    ∧ g.pendingPeriod.getD g.runningPeriod = c.period
    ∧ g.activeDuty = dutyOf g.appliedLevel g.runningPeriod

/-- The DIM items at rest, as an enable leaves them (R120). -/
def Generator.dimAtRest (g : Generator) : Prop :=
  g.appliedLevel = 0 ∧ g.activeDuty = 0 ∧ g.pendingDuty = none

/-- The STROBE items at rest (R112, R120). -/
def Generator.strobeAtRest (g : Generator) : Prop :=
  g.strobeCycle = false ∧ g.strobeCount = 0 ∧ g.flashRemaining = 0

/-- The generator of an enabled channel in order: the items of the other modes at rest, and the line as its mode
shapes it: in DIM by counter and duty (R108), in STROBE by the flash, which ends before its interval (R111, R112),
in PULSE by the pulse (R116). -/
def Generator.runningInOrder (g : Generator) (c : Channel) : Prop :=
  g.periodInOrder c ∧
    match c.mode with
    | .dim => g.strobeAtRest ∧ g.pulseRemaining = 0 ∧ (g.lineActive = true ↔ g.counter < g.activeDuty)
    | .strobe =>
      g.dimAtRest ∧ g.pulseRemaining = 0 ∧ (g.lineActive = true ↔ 0 < g.flashRemaining)
        ∧ (if g.strobeCycle = true then g.flashRemaining < g.strobeCount ∧ g.strobeCount ≤ 129
           else g.strobeCount = 0 ∧ g.flashRemaining = 0)
    | .switch => g.dimAtRest ∧ g.strobeAtRest ∧ g.pulseRemaining = 0
    | .pulse =>
      g.dimAtRest ∧ g.strobeAtRest ∧ g.pulseRemaining ≤ 255
        ∧ (g.lineActive = true ↔ 0 < g.pulseRemaining)

/-- Every channel and its generator in order: the generator of a disabled channel holds the state of R119. -/
def State.outputsInOrder (s : State) : Prop :=
  ∀ i : Fin 16, s.level.channels[i].inOrder
    ∧ (s.level.channels[i].enabled = false →
        s.generators[i] = Generator.disabledAt s.level.channels[i])
    ∧ (s.level.channels[i].enabled = true → s.generators[i].runningInOrder s.level.channels[i])

/-! ## Counts -/

/-- The heartbeat watch in order: a count of at most 255; the stale cause exactly at stage 2; nothing counted
without a reference (R24, R25). -/
def LinkFramer.watchInOrder (l : LinkFramer) : Prop :=
  l.staleCount ≤ 255 ∧ (l.staleCause = true ↔ l.staleStage = 2)
    ∧ (l.reference = none → l.staleCount = 0 ∧ l.staleStage = 0)

/-- The timebase in order: the base ticks gone are fewer than the step holds; a step tick taken ahead belongs to
the coming base tick (R80). -/
def Timebase.inOrder (t : Timebase) : Prop :=
  t.ticks < stepLength t.step ∧ (t.stepTaken = true → t.lastOfStep = true ∧ t.stepDue = false)

/-- The watch, the timebase, the event queue with its room (R172), the pair of stale parameters (R26) and the
Run Counts of unfiltered lines (R129) in order. -/
def State.countsInOrder (s : State) : Prop :=
  s.link.watchInOrder ∧ s.time.inOrder ∧ s.agent.queue.length ≤ 32
    ∧ (s.agent.params.staleLimit = 0 ∨ s.agent.params.staleWarn ≤ s.agent.params.staleLimit)
    ∧ ∀ i : Fin 8, s.sense.lines[i].filterOn = false → s.sense.lines[i].run = 0

/-! ## The machine -/

/-- The machine in order. -/
def State.inOrder (s : State) : Prop :=
  s.map.inOrder ∧ s.framingInOrder ∧ s.outputsInOrder ∧ s.countsInOrder

/-! ## The spec's tests, as the statements say them -/

/-- A bank request that passes the refusals of R34 up to step 3: it names a bank that is not the active one, and no
table operation holds it. -/
def State.bankOpen (s : State) (q : Req) (name : BankName) : Prop :=
  q.object = name.code ∧ name ≠ s.map.active
    ∧ (s.map.bank name).state ≠ .copying ∧ (s.map.bank name).state ≠ .checking

/-- The Arguments carry the fields of an entry, each within its range: Slot in A1 (bits 6 to 0) and A2, Action in A1
bit 7; Channel and Part in A3 and A4 of a TAP; Source and Argument in A5 and A6 of an INSERT (R36, R184, R185). -/
def carriesEntry (a : Args) (e : Entry) : Prop :=
  e.slot.toNat = a.a1.toNat % 128 * 256 + a.a2.toNat ∧
    match e.action with
    | .tap channel part => a.a1.toNat < 128 ∧ a.a3.toNat = channel.val ∧ a.a4 = part.code
    | .insert source =>
      128 ≤ a.a1.toNat ∧ a.a5 = source.code.1 ∧ ∀ argument, source.code.2 = some argument → a.a6 = argument

/-- Two bytes as a 16-bit value, most significant byte first (R180). -/
def wordAt (hi lo : Byte) : BitVec 16 := BitVec.ofNat 16 (hi.toNat * 256 + lo.toNat)

/-- The current level after the fade stage (R94). -/
def fadedLevel (current target rate : Nat) : Nat :=
  if rate = 0 ∨ (target - current) + (current - target) ≤ rate then target
  else if current < target then current + rate else current - rate

/-- A good header (R5, R181): Header Check, Version, Frame Index and Slot Count. -/
def headerIsGood (b1 b2 b3 b4 b5 b6 b7 b8 : Byte) : Prop :=
  b8 = crc8 [b1, b2, b3, b4, b5, b6, b7] ∧ b1.toNat / 16 = 1 ∧ b2.toNat ≤ b3.toNat
    ∧ 16 ≤ b6.toNat % 4 * 256 + b7.toNat ∧ b6.toNat % 4 * 256 + b7.toNat ≤ 512

/-- The header bytes as they are sent on from a node that regenerates them (R15). -/
def sentHeader (b1 b2 b3 b4 b5 b6 b7 b8 : Byte) : List Byte :=
  if b5.toNat < 250 then
    [b1, b2, b3, b4, b5 + 1, b6, b7, crc8 [b1, b2, b3, b4, b5 + 1, b6, b7]]
  else [b1, b2, b3, b4, b5, b6, b7, b8]

/-- The staging buffer an acting frame begins with: the committed raw values, none fresh (R58). -/
def State.freshBuffer (s : State) : Buffer :=
  ⟨.filling, Vector.ofFn fun i => ⟨s.level.channels[i].raw, false⟩⟩

/-- The Slot Engine once a good header has been taken in LOCKED, at the position it sets: an acting frame in mode
ACTIVE at position 1 to 250, with X taken when it is FREE and Y otherwise, and a non-acting frame else (R56, R58). -/
def State.slotAtHeader (s : State) (position : Byte) : SlotEngine :=
  if 1 ≤ position.toNat ∧ position.toNat ≤ 250 ∧ s.agent.params.passive = false then
    if s.slot.x.state = .free then
      { s.slot with x := s.freshBuffer, acting := true, place := 0,
                    snapshot := Vector.ofFn fun i => s.level.channels[i].demanded }
    else
      { s.slot with y := s.freshBuffer, acting := true, place := 0,
                    snapshot := Vector.ofFn fun i => s.level.channels[i].demanded }
  else { s.slot with acting := false }

/-- The Slot Engine after a frame end that hands nothing on: a FILLING buffer is FREE, a PENDING one is kept
(R73). -/
def SlotEngine.afterBadEnd (e : SlotEngine) : SlotEngine :=
  { e with x := if e.x.state = .filling then { e.x with state := .free } else e.x,
           y := if e.y.state = .filling then { e.y with state := .free } else e.y,
           acting := false }

/-- The Slot Engine after a frame end with a correct check: the FILLING buffer is PENDING, and an older PENDING one
is FREE (R72). -/
def SlotEngine.afterGoodEnd (e : SlotEngine) : SlotEngine :=
  { e with
    x := if e.x.state = .filling then { e.x with state := .pending }
      else if e.y.state = .filling ∧ e.x.state = .pending then { e.x with state := .free } else e.x,
    y := if e.x.state = .filling then
        (if e.y.state = .pending then { e.y with state := .free } else e.y)
      else if e.y.state = .filling then { e.y with state := .pending } else e.y,
    acting := false }

/-- The Slot Engine with both buffers FREE (R77, R78). -/
def SlotEngine.bothFree (e : SlotEngine) : SlotEngine :=
  { e with x := { e.x with state := .free }, y := { e.y with state := .free } }

/-- The Link Framer in DOWN, with nothing to send but an abort marker where one is owed (R7, R8, R13). -/
def LinkFramer.down (l : LinkFramer) : LinkFramer :=
  { l with state := .down, frame := .between, timeout := none, delay := [], badHeaders := 0 }

/-- The Link Framer with the cell's last byte taken in (R18, R19). -/
def LinkFramer.cellArrived (l : LinkFramer) (b : Byte) (slots : Nat) : LinkFramer :=
  { l with delay := l.delay ++ [.data b], frame := .good 24 slots, cell := l.cell ++ [b],
           receivedCheck := crc16 (l.cell ++ [b]), sentCheck := crc16 (l.cell ++ [b]) }

/-- The Link Framer with slot `n` taken in as `received`, and `sent` leaving in its place (R14, R18). -/
def LinkFramer.slotArrived (l : LinkFramer) (n slots : Nat) (received sent : Byte) : LinkFramer :=
  { l with delay := l.delay ++ [.data sent], frame := .good (25 + n) slots,
           receivedCheck := crc16Byte l.receivedCheck received, sentCheck := crc16Byte l.sentCheck sent }

/-- The Link Framer after a bad header in LOCKED that is not the third in a row, the symbol that proved it bad
taken in (R12, R21). -/
def LinkFramer.afterBadHeader (l : LinkFramer) : LinkFramer :=
  { l with frame := .bad, headerErrors := countUp l.headerErrors, badHeaders := l.badHeaders + 1,
           expected := if l.expected = l.heldLast then 0 else l.expected + 1 }

/-- The machine after a header has proved bad, by the link state it finds; `l` is the Link Framer with the symbol
that proved it bad taken in (R9, R10, R12, R13). -/
def State.headerProvedBad (s : State) (l : LinkFramer) : State :=
  match s.link.state with
  | .down => { s with link := l }
  | .hunt => { s with link := { l with frame := .bad, headerErrors := countUp l.headerErrors } }
  | .verify =>
    { s with link := { l with frame := .bad, headerErrors := countUp l.headerErrors, state := .hunt } }
  | .locked =>
    if s.link.badHeaders < 2 then { s with link := l.afterBadHeader }
    else
      State.raise
        { s with
          link := { l.afterBadHeader with state := .hunt, badHeaders := 0 },
          slot := s.slot.bothFree }
        (.linkState .locked .hunt)

/-- The faults of a COMMIT walk at an index (R44): its Slot is lower than that of the entry before it. -/
def slotOrderFaultAt (entries : List Entry) (i : Nat) : Prop :=
  ∃ before entry, 0 < i ∧ entries[i - 1]? = some before ∧ entries[i]? = some entry ∧ entry.slot < before.slot

/-- The faults of a COMMIT walk at an index (R44): it is an INSERT, and an earlier INSERT has the same Slot. -/
def doubleInsertFaultAt (entries : List Entry) (i : Nat) : Prop :=
  ∃ entry earlier j, j < i ∧ entries[i]? = some entry ∧ entries[j]? = some earlier
    ∧ entry.isInsert = true ∧ earlier.isInsert = true ∧ earlier.slot = entry.slot

/-- The fault a COMMIT walk finds at an index, tested in the order of R44. -/
def commitFaultAt (entries : List Entry) (i : Nat) (fault : CommitFault) : Prop :=
  match fault with
  | .slotOrder => slotOrderFaultAt entries i
  | .doubleInsert => ¬ slotOrderFaultAt entries i ∧ doubleInsertFaultAt entries i

end Sys2Proof.Machine
end

