-- ==== Sys2Proof/Certificates/Slice0/Obligations.lean ====
section
/-! DEFINITION. The statements about the model, for the provers: each a proposition under its own name. -/

open Sys2Proof Sys2Proof.Machine

/-! ## The machine -/

/-- A step takes the command at the front of the queue and executes it on the state with the queue's rest. -/
def Obligations.StepExecutesTheFrontCommand : Prop :=
  ∀ (c : Instr) (rest : List Instr) (s : State),
    step { s with pending := c :: rest } = exec c { s with pending := rest }

/-- Every command answers a next state and leaves the waiting commands alone: the spec stops the part nowhere.
On an empty queue the block idles (log 9). -/
def Obligations.NoCommandStopsThePart : Prop :=
  (∀ (c : Instr) (s : State), ∃ t, exec c s = .next t ∧ t.pending = s.pending)
    ∧ ∀ s : State, s.pending = [] → step s = .next s

/-- Power-on brings every item to its power-on value, and release of RESET_N has the same effect (R1, R2). That the
commands waiting stay is the model's choice (log 9), and so is that the count of free choices does (log 1). -/
def Obligations.ResetReleaseActsAsPowerOn : Prop :=
  ∀ (sns : Byte) (s : State),
    exec (.powerOn sns) s
        = .next { State.powerOn sns with choices := s.choices, pending := s.pending }
      ∧ exec (.resetNRelease sns) s
        = .next { State.powerOn sns with choices := s.choices, pending := s.pending }

/-- The value of every item after power-on: every output line is low, each Filtered Level is the level of its line, and
the event queue holds NODE_START. -/
def Obligations.PowerOnValues : Prop :=
  ∀ sns : Byte,
    let s := State.powerOn sns
    (s.link.state = .down ∧ s.link.position = 0 ∧ s.link.expected = 0 ∧ s.link.badHeaders = 0
        ∧ s.link.heldLast = 0 ∧ s.link.heldBlackout = false ∧ s.link.timeout = none
        ∧ s.link.reference = none ∧ s.link.staleCount = 0 ∧ s.link.staleStage = 0
        ∧ s.link.staleCause = false ∧ s.link.frameClock = 0 ∧ s.link.headerErrors = 0
        ∧ s.link.frameCheckErrors = 0 ∧ s.link.cellCheckErrors = 0 ∧ s.link.truncatedFrames = 0
        ∧ s.link.indexSlips = 0)
      ∧ (s.map.bankA = ⟨[], .empty⟩ ∧ s.map.bankB = ⟨[], .empty⟩ ∧ s.map.active = .a ∧ s.map.op = none
        ∧ s.map.misaligned = false ∧ s.map.owed = none)
      ∧ (s.slot.x.state = .free ∧ s.slot.y.state = .free)
      ∧ (s.agent.params.lossPolicy = .fallback ∧ s.agent.params.frameTimeout = 32
        ∧ s.agent.params.staleWarn = 4 ∧ s.agent.params.staleLimit = 16 ∧ s.agent.params.passive = false
        ∧ s.agent.resetScope = none ∧ s.agent.queue = [⟨.nodeStart, .none, 0, 0⟩]
        ∧ (∀ n, n < 14 → (s.agent.flags.getLsbD n = true ↔ n = 0))
        ∧ ∀ n, n < 12 → s.agent.mask.getLsbD n = true)
      ∧ s.statusByte = 0x80
      ∧ (s.time.captureClock = 0 ∧ s.time.step = 0 ∧ s.time.ticks = 0)
      ∧ (∀ i : Fin 16,
          let c := s.level.channels[i]
          (c.enabled = false ∧ c.mode = .dim ∧ c.divider = .by1 ∧ c.period = 4096 ∧ c.phase = 0
            ∧ c.inverted = false ∧ c.curve = 0 ∧ c.fadeRate = 0 ∧ c.fallbackLevel = 0 ∧ c.exempt = false
            ∧ c.onThreshold = 32768 ∧ c.offThreshold = 16384 ∧ c.pulseWidth = 10 ∧ c.retrigger = false)
          ∧ (c.raw = 0 ∧ c.target = 0 ∧ c.current = 0 ∧ c.targetSource = .reset ∧ c.demanded = 0)
          ∧ s.level.parks[i] = ⟨false, 0⟩ ∧ s.outHigh i = false
          ∧ (let g := s.generators[i]
             g.lineActive = false ∧ g.counter = 0 ∧ g.runningPeriod = 4096 ∧ g.pendingPeriod = none
              ∧ g.appliedLevel = 0 ∧ g.activeDuty = 0 ∧ g.pendingDuty = none ∧ g.strobeCycle = false
              ∧ g.strobeCount = 0 ∧ g.flashRemaining = 0 ∧ g.pulseArmed = false ∧ g.pulseRemaining = 0))
      ∧ (∀ (n : Fin 3) (k : Fin 17),
          (s.level.curves[n][k]).toNat = if k.val = 16 then 65535 else k.val * 4096)
      ∧ (s.level.blackout = false ∧ s.level.testFull = false ∧ s.level.freezeRequest = false
        ∧ s.level.frozen = false ∧ s.level.fallback = false ∧ s.level.blackoutInForce = false)
      ∧ (∀ n : Fin 8,
          let l := s.sense.lines[n]
          l.high = sns.getLsbD n.val ∧ l.run = 0 ∧ l.filterOn = true ∧ l.condition = .ignore
            ∧ l.captureEnable = false ∧ l.captureEdge = .rise ∧ l.timestamp = 0 ∧ l.fresh = false
            ∧ l.overrun = false)
      ∧ (s.sense.matchMode = .or ∧ s.sense.matchState = false ∧ s.sense.matchCount = 0
        ∧ s.sense.armed = false ∧ s.sense.active = false)

/-! ## The invariants -/

/-- The machine is in order after power-on and right after reset; State.reset is the power-on state with the sense
lines LOW, which is the model's choice (log 2). -/
def Obligations.PowerOnIsInOrder : Prop :=
  State.reset = State.powerOn 0 ∧ ∀ sns : Byte, (State.powerOn sns).inOrder

/-- Every step keeps the Map Store in order: counts up to 128, the unit and its target, a validated READY bank, and
an active bank that is EMPTY or READY. -/
def Obligations.MapStoreStaysInOrder : Prop :=
  ∀ s t : State, s.map.inOrder → step s = .next t → t.map.inOrder

/-- Every step keeps the link, the staging buffers and the pending reset in order. -/
def Obligations.FramingStaysInOrder : Prop :=
  ∀ s t : State, s.framingInOrder → step s = .next t → t.framingInOrder

/-- Every step keeps the channel records and the output generators in order. -/
def Obligations.OutputsStayInOrder : Prop :=
  ∀ s t : State, s.outputsInOrder → step s = .next t → t.outputsInOrder

/-- Every step keeps the heartbeat watch, the timebase, the event queue, the stale parameters and the Run Counts
in order. -/
def Obligations.CountsStayInOrder : Prop :=
  ∀ s t : State, s.countsInOrder → step s = .next t → t.countsInOrder

/-! ## The Link Framer -/

/-- A frame-start marker begins a frame, reloads the frame timeout, is forwarded, and moves DOWN to HUNT; HUNT, VERIFY
and LOCKED are kept where it cuts no header short (BadHeaders says what it does there). Without a pending reset no block
but the Link Framer, the Slot Engine and the event queue is touched, and where no frame is in flight, and no header is
cut short, the marker does nothing else. With a NODE reset pending, the timeout is reloaded with the Frame Timeout that
the reset has restored: the model's reading (log 11). -/
def Obligations.MarkerBeginsAFrame : Prop :=
  ∀ (s : State) (sns : Byte), ∃ t,
    exec (.frameStartMarkerArrival sns) s = .next t
      ∧ t.link.frame = .header ∧ t.link.header = []
      ∧ t.link.timeout = some (if t.agent.params.frameTimeout = 0 then 256
          else t.agent.params.frameTimeout.toNat)
      ∧ t.link.delay = s.link.delay ++ [.marker]
      ∧ t.link.position = s.link.position ∧ t.link.frameClock = s.link.frameClock
      ∧ (s.link.state = .down → t.link.state = .hunt ∧ t.agent = s.agent)
      ∧ (s.link.state ≠ .down → s.link.frame ≠ .header → t.link.state = s.link.state)
      ∧ (s.agent.resetScope = none →
          t.map = s.map ∧ t.level = s.level ∧ t.generators = s.generators ∧ t.time = s.time
            ∧ t.sense = { s.sense with pins := sns } ∧ t.agent.params = s.agent.params)
      ∧ (s.link.frame ≠ .header → s.link.inFlight = false →
          t = { s with
            sense := { s.sense with pins := sns },
            link := { s.link with
              state := if s.link.state = .down then .hunt else s.link.state,
              frame := .header, header := [], delay := s.link.delay ++ [.marker],
              timeout := some (if s.agent.params.frameTimeout = 0 then 256
                else s.agent.params.frameTimeout.toNat) } })

/-- The early end of a LOCKED frame in flight, by an abort marker, an idle symbol or a frame-start marker, with no
reset pending: the frame is truncated, counted, and its FILLING buffer freed; an abort marker leaves in place of an
abort marker or an idle symbol, and a frame-start marker as itself. -/
def Obligations.EarlyEndTruncatesTheFrame : Prop :=
  ∀ (s : State) (sns : Byte) (place slots : Nat),
    s.link.state = .locked → s.link.frame = .good place slots → s.agent.resetScope = none →
      let ended : LinkFramer :=
        { s.link with frame := .between, truncatedFrames := countUp s.link.truncatedFrames }
      let cut : State := { s with sense := { s.sense with pins := sns }, slot := s.slot.afterBadEnd }
      exec (.abortMarkerArrival sns) s
          = .next { cut with link := { ended with delay := s.link.delay ++ [.abort] } }
        ∧ exec (.idleArrival sns) s
          = .next { cut with link := { ended with delay := s.link.delay ++ [.abort] } }
        ∧ exec (.frameStartMarkerArrival sns) s
          = .next { cut with link := { ended with
              delay := s.link.delay ++ [.marker], frame := .header, header := [],
              timeout := some (if s.agent.params.frameTimeout = 0 then 256
                else s.agent.params.frameTimeout.toNat) } }

/-- Symbols that the part only repeats. Between frames a data byte, an abort marker or an idle symbol has no effect in
DOWN, is repeated in HUNT, and is sent as idle in VERIFY and LOCKED. A frame with a bad header, and outside LOCKED the
rest of a frame with a good one, is repeated; the good one ends with its second frame-check byte, an abort marker or
an idle symbol. -/
def Obligations.OtherSymbolsAreRepeated : Prop :=
  ∀ (s : State) (b sns : Byte),
    let put (sym : Sym) : LinkFramer := { s.link with delay := s.link.delay ++ [sym] }
    let seen : State := { s with sense := { s.sense with pins := sns } }
    (s.link.frame = .between →
        let after (sym : Sym) : LinkFramer :=
          match s.link.state with
          | .down => s.link
          | .hunt => put sym
          | .verify => put .idle
          | .locked => put .idle
        exec (.dataByteArrival b) s = .next { s with link := after (.data b) }
          ∧ exec (.abortMarkerArrival sns) s = .next { seen with link := after .abort }
          ∧ exec (.idleArrival sns) s = .next { seen with link := after .idle })
      ∧ (s.link.state ≠ .down → s.link.frame = .bad →
        exec (.dataByteArrival b) s = .next { s with link := put (.data b) }
          ∧ exec (.abortMarkerArrival sns) s = .next { seen with link := put .abort }
          ∧ exec (.idleArrival sns) s = .next { seen with link := put .idle })
      ∧ ∀ place slots, s.link.frame = .good place slots → s.link.state = .hunt ∨ s.link.state = .verify →
        exec (.dataByteArrival b) s
            = .next { s with link := { put (.data b) with
                frame := if place + 1 < 26 + slots then .good (place + 1) slots else .between } }
          ∧ exec (.abortMarkerArrival sns) s = .next { seen with link := { put .abort with frame := .between } }
          ∧ exec (.idleArrival sns) s = .next { seen with link := { put .idle with frame := .between } }

/-- The bytes that only take their place in the frame: the first seven of the header, and in LOCKED the first
fifteen of the cell and the first frame-check byte. -/
def Obligations.BytesTakeTheirPlace : Prop :=
  ∀ (s : State) (b : Byte), s.link.state ≠ .down →
    let put : LinkFramer := { s.link with delay := s.link.delay ++ [.data b] }
    (s.link.frame = .header → s.link.header.length < 7 →
        exec (.dataByteArrival b) s = .next { s with link := { put with header := s.link.header ++ [b] } })
      ∧ (∀ place slots, s.link.state = .locked → s.link.frame = .good place slots → place < 23 →
        exec (.dataByteArrival b) s
          = .next { s with link := { put with frame := .good (place + 1) slots, cell := s.link.cell ++ [b] } })
      ∧ ∀ slots, s.link.state = .locked → 0 < slots → s.link.frame = .good (24 + slots) slots →
        exec (.dataByteArrival b) s
          = .next { s with link := { put with frame := .good (25 + slots) slots, checkByte := b } }

/-- A bad header, at its eighth byte or where an abort marker, an idle symbol or a frame-start marker cuts it short:
counted; HUNT stays, VERIFY goes to HUNT; LOCKED counts it, and leaves for HUNT at the third in a row, with LINK_STATE
raised and both buffers freed. The frame-start marker then begins its own frame, in the link state the bad header has
left. -/
def Obligations.BadHeaders : Prop :=
  ∀ (s : State) (sns : Byte), s.link.state ≠ .down → s.link.frame = .header →
    let seen : State := { s with sense := { s.sense with pins := sns } }
    (∀ b1 b2 b3 b4 b5 b6 b7 b8 : Byte,
        s.link.header = [b1, b2, b3, b4, b5, b6, b7] → ¬ headerIsGood b1 b2 b3 b4 b5 b6 b7 b8 →
          exec (.headerEighthByteArrival b8) s
            = .next (s.headerProvedBad { s.link with
                delay := s.link.delay ++ [.data b8], header := [b1, b2, b3, b4, b5, b6, b7, b8] }))
      ∧ exec (.abortMarkerArrival sns) s
        = .next (seen.headerProvedBad { s.link with delay := s.link.delay ++ [.abort] })
      ∧ exec (.idleArrival sns) s
        = .next (seen.headerProvedBad { s.link with delay := s.link.delay ++ [.idle] })
      ∧ (let cut : State := seen.headerProvedBad s.link
         exec (.frameStartMarkerArrival sns) s
          = .next { cut with link := { cut.link with
              delay := s.link.delay ++ [.marker], frame := .header, header := [],
              timeout := some (if s.agent.params.frameTimeout = 0 then 256
                else s.agent.params.frameTimeout.toNat) } })

/-- A good header in HUNT moves the link to VERIFY; it is regenerated, and sets the position, the expected index and
the held Last Index. -/
def Obligations.GoodHeaderInHunt : Prop :=
  ∀ (s : State) (b1 b2 b3 b4 b5 b6 b7 b8 : Byte) (sent seven : List Sym),
    s.link.state = .hunt → s.link.frame = .header → s.link.header = [b1, b2, b3, b4, b5, b6, b7] →
    headerIsGood b1 b2 b3 b4 b5 b6 b7 b8 → s.link.delay = sent ++ seven → seven.length = 7 →
      exec (.headerEighthByteArrival b8) s
        = .next { s with link := { s.link with
            state := .verify, header := [b1, b2, b3, b4, b5, b6, b7, b8],
            frame := .good 8 (b6.toNat % 4 * 256 + b7.toNat), heldLast := b3, cell := [],
            position := if b5.toNat < 250 then b5 + 1 else 0,
            expected := if b2.toNat < b3.toNat then b2 + 1 else 0,
            delay := sent ++ (sentHeader b1 b2 b3 b4 b5 b6 b7 b8).map .data } }

/-- A good header in VERIFY. With any index but the expected one the link goes to HUNT and the header is sent as
received. With the expected index it enters LOCKED, where its frame is handled; and with index 0 it is a superframe
boundary too: the header's Bank is decided, with its event after LINK_STATE, and the watch, restarted, records the
Heartbeat. -/
def Obligations.GoodHeaderInVerify : Prop :=
  ∀ (s : State) (b1 b2 b3 b4 b5 b6 b7 b8 : Byte) (sent seven : List Sym),
    s.link.state = .verify → s.link.frame = .header → s.link.header = [b1, b2, b3, b4, b5, b6, b7] →
    headerIsGood b1 b2 b3 b4 b5 b6 b7 b8 → s.link.delay = sent ++ seven → seven.length = 7 →
      let position : Byte := if b5.toNat < 250 then b5 + 1 else 0
      let taken : LinkFramer := { s.link with
        header := [b1, b2, b3, b4, b5, b6, b7, b8], frame := .good 8 (b6.toNat % 4 * 256 + b7.toNat),
        heldLast := b3, cell := [] }
      let locked : LinkFramer := { taken with
        state := .locked, badHeaders := 0, staleCount := 0, staleStage := 0, staleCause := false,
        reference := none, heldBlackout := b1.getLsbD 2, position := position,
        expected := if b2.toNat < b3.toNat then b2 + 1 else 0,
        delay := sent ++ (sentHeader b1 b2 b3 b4 b5 b6 b7 b8).map .data }
      (b2 ≠ s.link.expected →
          exec (.headerEighthByteArrival b8) s
            = .next { s with link := { taken with
                state := .hunt, delay := s.link.delay ++ [.data b8] } })
        ∧ (b2 = s.link.expected → b2 ≠ 0 →
          exec (.headerEighthByteArrival b8) s
            = .next (State.raise { s with link := locked, slot := s.slotAtHeader position }
                (.linkState .verify .locked)))
        ∧ (b2 = s.link.expected → b2 = 0 →
          let named : BankName := if b1.getLsbD 3 then .b else .a
          let bank := s.map.bank named
          let swaps : Prop := named ≠ s.map.active ∧ bank.state = .ready
          let refuses : Prop := named ≠ s.map.active ∧ bank.state ≠ .ready
          exec (.headerEighthByteArrival b8) s
            = .next (State.raiseAll
                { s with
                  link := { locked with reference := some b4 }, slot := s.slotAtHeader position,
                  map := { s.map with
                    active := if swaps then named else s.map.active, misaligned := decide refuses } }
                (Event.linkState .verify .locked
                  :: (if swaps then [.bankSwitched named bank.count]
                    else if refuses ∧ s.map.misaligned = false then [.swapRefused named bank.state]
                    else []))))

/-- A good header in LOCKED, not a boundary: regenerated; it sets position, expected index, held Last Index and held
Blackout flag, clears the bad-header count, raises POSITION_CHANGED and then INDEX_SLIP where they apply, and decides
the acting frame. -/
def Obligations.GoodHeaderInLocked : Prop :=
  ∀ (s : State) (b1 b2 b3 b4 b5 b6 b7 b8 : Byte) (sent seven : List Sym),
    s.link.state = .locked → s.link.frame = .header → s.link.header = [b1, b2, b3, b4, b5, b6, b7] →
    headerIsGood b1 b2 b3 b4 b5 b6 b7 b8 → b2 ≠ 0 → s.link.delay = sent ++ seven → seven.length = 7 →
      let position : Byte := if b5.toNat < 250 then b5 + 1 else 0
      exec (.headerEighthByteArrival b8) s
        = .next (State.raiseAll
            { s with
              link := { s.link with
                header := [b1, b2, b3, b4, b5, b6, b7, b8],
                frame := .good 8 (b6.toNat % 4 * 256 + b7.toNat), heldLast := b3, cell := [],
                badHeaders := 0, heldBlackout := b1.getLsbD 2, position := position,
                expected := if b2.toNat < b3.toNat then b2 + 1 else 0,
                indexSlips := if b2 = s.link.expected then s.link.indexSlips
                  else countUp s.link.indexSlips,
                delay := sent ++ (sentHeader b1 b2 b3 b4 b5 b6 b7 b8).map .data },
              slot := s.slotAtHeader position }
            ((if position = s.link.position then []
                else [Event.positionChanged s.link.position position])
              ++ (if b2 = s.link.expected then [] else [Event.indexSlip s.link.expected b2])))

/-- A superframe boundary in LOCKED. As for every good header there, the header is regenerated, and sets position,
expected index, held Last Index, held Blackout flag, bad-header count and index slips, with POSITION_CHANGED and then
INDEX_SLIP where they apply. The bank swap is decided on the header's Bank and the heartbeat watch runs on its
Heartbeat. Each event sets its flag and no other flag but QUEUE_LOST can change; the rest of the part but link, queue and
staging stays. The records stand in the queue when the mask admits every kind and there is room for the most records a
header raises: those of the header first, then those of the boundary.
Where a swap event and HEARTBEAT arise together, their order is a free value (log 1), and nothing is said of it. -/
def Obligations.BoundaryDecidesBankAndWatch : Prop :=
  ∀ (s : State) (b1 b3 b4 b5 b6 b7 b8 : Byte) (sent seven : List Sym),
    s.link.state = .locked → s.link.frame = .header → s.link.header = [b1, 0, b3, b4, b5, b6, b7] →
    headerIsGood b1 0 b3 b4 b5 b6 b7 b8 → s.link.delay = sent ++ seven → seven.length = 7 → ∃ t,
      let position : Byte := if b5.toNat < 250 then b5 + 1 else 0
      exec (.headerEighthByteArrival b8) s = .next t
        ∧ t.link = { s.link with
            header := [b1, 0, b3, b4, b5, b6, b7, b8], frame := .good 8 (b6.toNat % 4 * 256 + b7.toNat),
            heldLast := b3, cell := [], badHeaders := 0, heldBlackout := b1.getLsbD 2, position := position,
            expected := if 0 < b3.toNat then 1 else 0,
            indexSlips := if s.link.expected = 0 then s.link.indexSlips else countUp s.link.indexSlips,
            delay := sent ++ (sentHeader b1 0 b3 b4 b5 b6 b7 b8).map .data,
            reference := some b4, staleCount := t.link.staleCount, staleStage := t.link.staleStage,
            staleCause := t.link.staleCause }
        ∧ (t.agent.flags.getLsbD 2 = true ↔ s.agent.flags.getLsbD 2 = true ∨ position ≠ s.link.position)
        ∧ (t.agent.flags.getLsbD 3 = true ↔ s.agent.flags.getLsbD 3 = true ∨ s.link.expected ≠ 0)
        ∧ (∀ n, n ∉ [2, 3, 4, 5, 7, 12] → t.agent.flags.getLsbD n = s.agent.flags.getLsbD n)
        ∧ t.level = s.level ∧ t.generators = s.generators ∧ t.sense = s.sense ∧ t.time = s.time
        ∧ t.agent.params = s.agent.params ∧ t.agent.mask = s.agent.mask
        ∧ t.slot = s.slotAtHeader position
        ∧ (let named : BankName := if b1.getLsbD 3 then .b else .a
           t.map = (if named = s.map.active then { s.map with misaligned := false }
              else if (s.map.bank named).state = .ready then
                { s.map with active := named, misaligned := false }
              else { s.map with misaligned := true })
            ∧ (t.agent.flags.getLsbD 4 = true ↔ s.agent.flags.getLsbD 4 = true
                ∨ named ≠ s.map.active ∧ (s.map.bank named).state = .ready)
            ∧ (t.agent.flags.getLsbD 5 = true ↔ s.agent.flags.getLsbD 5 = true
                ∨ named ≠ s.map.active ∧ (s.map.bank named).state ≠ .ready ∧ s.map.misaligned = false))
        ∧ (let counted := min (s.link.staleCount + 1) 255
           let stale : Prop := s.link.reference = some b4
           let limited : Prop := stale ∧ s.agent.params.staleLimit ≠ 0
              ∧ s.agent.params.staleLimit.toNat ≤ counted ∧ s.link.staleStage ≠ 2
           let warned : Prop := stale ∧ ¬ limited ∧ s.agent.params.staleWarn ≠ 0
              ∧ s.agent.params.staleWarn.toNat ≤ counted ∧ s.link.staleStage = 0
           let changed : Prop := s.link.reference ≠ none ∧ ¬ stale
           (stale → t.link.staleCount = counted)
            ∧ (changed → t.link.staleCount = 0 ∧ t.link.staleStage = 0)
            ∧ (changed → s.link.staleStage ≠ 0 → t.link.staleCause = false)
            ∧ (limited → t.link.staleStage = 2 ∧ t.link.staleCause = true)
            ∧ (warned → t.link.staleStage = 1 ∧ t.link.staleCause = s.link.staleCause)
            ∧ (stale ∧ ¬ limited ∧ ¬ warned →
                t.link.staleStage = s.link.staleStage ∧ t.link.staleCause = s.link.staleCause)
            ∧ (s.link.reference = none → t.link.staleCount = s.link.staleCount
                ∧ t.link.staleStage = s.link.staleStage ∧ t.link.staleCause = s.link.staleCause)
            ∧ (t.agent.flags.getLsbD 7 = true ↔ s.agent.flags.getLsbD 7 = true
                ∨ limited ∨ warned ∨ changed ∧ s.link.staleStage ≠ 0))
        ∧ (s.agent.mask = 0xFFF → s.agent.queue.length ≤ 28 →
           let named : BankName := if b1.getLsbD 3 then .b else .a
           let stamp : BitVec 16 := s.link.frameClock.setWidth 16
           let record (e : Event) : EventRecord := ⟨e.kind, e.subject, stamp, e.detail⟩
           s.agent.queue
              ++ (if position = s.link.position then []
                else [record (.positionChanged s.link.position position)])
              ++ (if s.link.expected = 0 then [] else [record (.indexSlip s.link.expected 0)])
              <+: t.agent.queue
            ∧ (named ≠ s.map.active → (s.map.bank named).state = .ready →
              (⟨.bankSwitched, .bank named, stamp, (BitVec.ofNat 8 (s.map.bank named).count).setWidth 16⟩ :
                EventRecord) ∈ t.agent.queue)
            ∧ (named ≠ s.map.active → (s.map.bank named).state ≠ .ready → s.map.misaligned = false →
              (⟨.swapRefused, .bank named, stamp, (s.map.bank named).state.code.setWidth 16⟩ : EventRecord)
                ∈ t.agent.queue)
            ∧ (t.link.staleStage ≠ s.link.staleStage →
              (⟨.heartbeat, .none, stamp, BitVec.ofNat 8 t.link.staleStage.val
                  ++ (BitVec.ofNat 8 (if t.link.staleStage = 0 then s.link.staleCount
                    else t.link.staleCount))⟩ : EventRecord) ∈ t.agent.queue))

/-- The last cell byte of a LOCKED frame, where the Agent has nothing to do: an incorrect cell check is counted and
the cell sent as received; a correct one is sent as received at position 0, with a Kind that is not REQUEST, or with
a Destination that is neither this node nor 255. -/
def Obligations.CellIsPassedUnaltered : Prop :=
  ∀ (s : State) (b : Byte) (slots : Nat),
    s.link.state = .locked → s.link.frame = .good 23 slots → s.link.cell.length = 15 →
      (b ≠ crc8 s.link.cell →
          exec (.cellLastByteArrival b) s
            = .next { s with link := { s.link.cellArrived b slots with
                cellCheckErrors := countUp s.link.cellCheckErrors } })
        ∧ (b = crc8 s.link.cell →
          s.link.position = 0 ∨ s.link.cell[1]? ≠ some 0x01
            ∨ s.link.cell[0]? ≠ some s.link.position ∧ s.link.cell[0]? ≠ some 255 →
          exec (.cellLastByteArrival b) s = .next { s with link := s.link.cellArrived b slots })

/-- A cell that carries a request does, as its last byte arrives, what the row of that request does. -/
def Obligations.CellCarriesItsRequest : Prop :=
  ∀ (i : Instr) (c : RequestCode) (q : Req) (s : State) (b : Byte) (slots : Nat),
    requestRow i = some (c, q) → s.link.state = .locked → s.link.frame = .good 23 slots →
    s.link.cell ++ [b] = requestBytes c.byte q →
      exec (.cellLastByteArrival b) s = exec i { s with link := s.link.cellArrived b slots }

/-- Request cells that no request row stands for. With a Code that is no request code they are answered UNKNOWN; with
the code of WRITE_CHANNEL, SET_OVERRIDE or RESET_NODE and an Object that names no group that can be written, no override
or no scope, RANGE. As broadcasts they set the BAD_BROADCAST flag, without a record or a reply. -/
def Obligations.UnknownCodes : Prop :=
  ∀ (code : Byte) (q : Req) (s : State) (b : Byte) (slots : Nat),
    s.link.state = .locked → s.link.frame = .good 23 slots →
    s.link.cell ++ [b] = requestBytes code q → 1 ≤ s.link.position.toNat → s.link.position.toNat ≤ 250 →
      let arrived : State := { s with link := s.link.cellArrived b slots }
      let unknown : Prop := ∀ c : RequestCode, c.byte ≠ code
      let unfit : Prop := code = 0x20 ∧ 3 ≤ q.object.toNat ∨ code = 0x30 ∧ 3 ≤ q.object.toNat
        ∨ code = 0x50 ∧ 4 ≤ q.object.toNat
      (unknown → q.destination = s.link.position →
          exec (.cellLastByteArrival b) s = .next (arrived.writeReply code q (answer q .unknown)))
        ∧ (unfit → q.destination = s.link.position →
          exec (.cellLastByteArrival b) s = .next (arrived.writeReply code q (answer q .range)))
        ∧ (unknown ∨ unfit → q.destination = 255 →
          exec (.cellLastByteArrival b) s
            = .next { arrived with agent := { s.agent with flags := s.agent.flags ||| 0x2000 } })

/-- An addressed request is answered in its own cell: Destination, Code and Tag as received, Kind REPLY, the reply's
fields at their places and a recomputed cell check, over which the frame check is formed. A refused request changes
nothing else, and its reply carries Object and Index as received and Arguments and count byte of 0. -/
def Obligations.ReplyTakesTheCell : Prop :=
  ∀ (i : Instr) (c : RequestCode) (q : Req) (s : State),
    requestRow i = some (c, q) → s.addressed q → 16 ≤ s.link.delay.length → ∃ (t : State) (r : Reply),
      exec i s = .next t
        ∧ (let fifteen : List Byte :=
            [q.destination, 0x02, c.byte, q.tag, r.status.code, r.object, r.index.extractLsb' 8 8,
             r.index.extractLsb' 0 8, r.args.a1, r.args.a2, r.args.a3, r.args.a4, r.args.a5, r.args.a6, r.count]
           let sixteen := fifteen ++ [crc8 fifteen]
           t.link.cell = sixteen ∧ t.link.sentCheck = crc16 sixteen
            ∧ t.link.delay = s.link.delay.take (s.link.delay.length - 16) ++ sixteen.map .data
            ∧ t.link.receivedCheck = s.link.receivedCheck ∧ t.link.frame = s.link.frame)
        ∧ (r.status ∈ [Status.busy, .locked, .range, .state, .full, .unknown] →
            r = ⟨r.status, q.object, q.index, ⟨0, 0, 0, 0, 0, 0⟩, 0⟩
              ∧ t = { s with link := { s.link with
                  cell := t.link.cell, sentCheck := t.link.sentCheck, delay := t.link.delay } })

/-- A request row without effect: one for another node's position or for no node is passed; where no cell is handed to
the Agent nothing is executed (the latter is how the model takes a request row there: log 4). -/
def Obligations.RequestsForOthersArePassed : Prop :=
  ∀ (i : Instr) (c : RequestCode) (q : Req) (s : State), requestRow i = some (c, q) →
    ¬ s.cellHanded ∨ q.destination ≠ s.link.position ∧ q.destination ≠ 255 → exec i s = .next s

/-- A broadcast: a request that is not broadcast-allowed sets the BAD_BROADCAST flag and nothing else; an allowed one
has the effect it has when addressed, but for the reply, and leaves the cell, the link and the delay line alone. -/
def Obligations.BroadcastsGiveNoReply : Prop :=
  ∀ (i : Instr) (c : RequestCode) (q : Req) (s : State), requestRow i = some (c, q) → s.broadcast q →
    let allowed : Prop := c = .commitBank ∨ c = .freeze ∨ c = .thaw ∨ c = .clearInterlock
      ∨ c = .setOverride ∧ (q.object = 0x00 ∨ q.object = 0x01)
    (¬ allowed →
        exec i s = .next { s with agent := { s.agent with flags := s.agent.flags ||| 0x2000 } })
      ∧ (allowed → ∃ t, exec i s = .next t ∧ t.link = s.link
          ∧ ∀ (j : Instr) (p : Req), requestRow j = some (c, p) →
              p = { q with destination := s.link.position } →
              ∃ u, exec j s = .next u ∧ t = { u with link := s.link })

/-! ## The Slot Engine -/

/-- A slot of a LOCKED frame. In an acting frame the entries of the active bank for it, from the present place on, are
performed in index order on the received byte; the place moves past them, and the byte that the last INSERT gave, or
the received one where there is none, leaves. In any other frame it leaves as received. -/
def Obligations.SlotEntriesArePerformedInOrder : Prop :=
  ∀ (s : State) (b : Byte) (n slots : Nat),
    s.link.state = .locked → s.link.frame = .good (24 + n) slots → n < slots →
      (s.slot.acting = false → exec (.slotArrival b) s = .next { s with link := s.link.slotArrived n slots b b })
        ∧ (s.slot.acting = true → ∀ here later : List Entry,
          (s.map.bank s.map.active).entries.drop s.slot.place = here ++ later →
          (∀ e ∈ here, e.slot.toNat = n) → (∀ e, later.head? = some e → e.slot.toNat ≠ n) →
            let done := here.foldl (fun (acc : State × Byte) e => acc.1.perform e b acc.2) (s, b)
            exec (.slotArrival b) s
              = .next { done.1 with
                  slot := { done.1.slot with place := s.slot.place + here.length },
                  link := s.link.slotArrived n slots b done.2 })

/-- What an entry does at its slot. A TAP writes the received byte into the staged raw value of its channel in the
FILLING buffer by its Part, makes it fresh, and leaves the byte that is sent alone. An INSERT sends the byte of its
Source, and changes no state but for CAPTURE_LO, which clears a fresh record. -/
def Obligations.TapsStageAndInsertsSend : Prop :=
  ∀ (s : State) (slot : BitVec 9) (b sent : Byte),
    (∀ (channel : Fin 16) (part : Part),
      let value (before : Level) : Level :=
        match part with
        | .byte => BitVec.ofNat 16 (b.toNat * 257)
        | .high => BitVec.ofNat 16 (b.toNat * 256 + before.toNat % 256)
        | .low => BitVec.ofNat 16 (before.toNat / 256 * 256 + b.toNat)
      let tapped (buffer : Buffer) : Buffer :=
        { buffer with records := buffer.records.set channel ⟨value buffer.records[channel].raw, true⟩ }
      (s.slot.x.state = .filling → s.slot.y.state ≠ .filling →
          s.perform ⟨slot, .tap channel part⟩ b sent
            = ({ s with slot := { s.slot with x := tapped s.slot.x } }, sent))
        ∧ (s.slot.y.state = .filling → s.slot.x.state ≠ .filling →
          s.perform ⟨slot, .tap channel part⟩ b sent
            = ({ s with slot := { s.slot with y := tapped s.slot.y } }, sent)))
      ∧ (let sends (source : Source) (byte : Byte) : Prop := s.perform ⟨slot, .insert source⟩ b sent = (s, byte)
         (∀ value, sends (.const value) value) ∧ sends .nodeStatus s.statusByte
          ∧ sends .matchCount s.sense.matchCount
          ∧ (∃ levels : Byte, sends .senseLevels levels
              ∧ ∀ n : Fin 8, levels.getLsbD n.val = s.sense.lines[n].high)
          ∧ (∀ channel, sends (.levelHi channel) (BitVec.ofNat 8 (s.slot.snapshot[channel].toNat / 256))
              ∧ sends (.levelLo channel) (BitVec.ofNat 8 (s.slot.snapshot[channel].toNat % 256)))
          ∧ ∀ line : Fin 8,
              let record := s.sense.lines[line]
              (record.fresh = false → sends (.captureHi line) 255 ∧ sends (.captureLo line) 255)
                ∧ (record.fresh = true →
                  sends (.captureHi line) (BitVec.ofNat 8 (record.timestamp.toNat / 256))
                    ∧ s.perform ⟨slot, .insert (.captureLo line)⟩ b sent
                      = ({ s with sense := { s.sense with
                            lines := s.sense.lines.set line { record with fresh := false } } },
                          BitVec.ofNat 8 (record.timestamp.toNat % 256))))

/-! ## The end of a frame -/

/-- The second frame-check byte of a LOCKED frame, with no reset pending. A correct check leaves as the check over the
sent bytes, the frame clock advances and the FILLING buffer is PENDING; an incorrect one leaves as the complement, is
counted, and the FILLING buffer is FREE. -/
def Obligations.FrameEndsWithItsCheck : Prop :=
  ∀ (s : State) (b sns : Byte) (slots : Nat) (sent : List Sym) (first : Sym),
    s.link.state = .locked → s.link.frame = .good (25 + slots) slots → s.agent.resetScope = none →
    s.link.delay = sent ++ [first] →
      let ended (check : BitVec 16) : LinkFramer := { s.link with
        frame := .between,
        delay := sent ++ [.data (check.extractLsb' 8 8), .data (check.extractLsb' 0 8)] }
      let seen : State := { s with sense := { s.sense with pins := sns } }
      (s.link.checkByte.toNat * 256 + b.toNat = s.link.receivedCheck.toNat →
          exec (.frameCheckSecondByteArrival b sns) s
            = .next { seen with
                link := { ended s.link.sentCheck with frameClock := s.link.frameClock + 1 },
                slot := s.slot.afterGoodEnd })
        ∧ (s.link.checkByte.toNat * 256 + b.toNat ≠ s.link.receivedCheck.toNat →
          exec (.frameCheckSecondByteArrival b sns) s
            = .next { seen with
                link := { ended (~~~s.link.sentCheck) with
                  frameCheckErrors := countUp s.link.frameCheckErrors },
                slot := s.slot.afterBadEnd })

/-- A pending reset is applied at the end of its frame, after the frame's own end: at the second frame-check byte, and
at a truncation by an abort marker, an idle symbol or a frame-start marker (the marker's new frame then begins on the
reset state: log 11). -/
def Obligations.PendingResetIsAppliedAtTheFrameEnd : Prop :=
  ∀ (s : State) (b sns : Byte) (place slots : Nat) (scope : Scope),
    s.link.state = .locked → s.link.frame = .good place slots → s.agent.resetScope = some scope →
      let spared : State := { s with agent := { s.agent with resetScope := none } }
      let resetAfter (i : Instr) : Prop :=
        ∃ u, exec i spared = .next u ∧ exec i s = .next (u.applyReset scope)
      (place = 25 + slots → resetAfter (.frameCheckSecondByteArrival b sns))
        ∧ resetAfter (.abortMarkerArrival sns) ∧ resetAfter (.idleArrival sns)
        ∧ exec (.frameStartMarkerArrival sns) s
          = exec (.frameStartMarkerArrival sns)
              (State.applyReset
                { spared with
                  sense := { s.sense with pins := sns },
                  link := { s.link with
                    frame := .between, truncatedFrames := countUp s.link.truncatedFrames },
                  slot := s.slot.afterBadEnd } scope)

/-- What a node reset touches, scope by scope; every item not named keeps its value. Frozen is cleared at the reset
(log 18). A TABLE_OP_DONE still owed when scope TABLES is applied is placed by it (R53; log 17). -/
def Obligations.ResetTouchesWhatItsScopeNames : Prop :=
  ∀ (s : State) (scope : Scope),
    let t := s.applyReset scope
    let outputs : Prop := scope = .outputs ∨ scope = .node
    let tables : Prop := scope = .tables ∨ scope = .node
    let events : Prop := scope = .events ∨ scope = .node
    let cleared (l : LinkFramer) : LinkFramer :=
      { l with headerErrors := 0, frameCheckErrors := 0, cellCheckErrors := 0, truncatedFrames := 0,
               indexSlips := 0 }
    (t.link = match scope with
        | .outputs => s.link
        | .tables => s.link
        | .events => cleared s.link
        | .node => { cleared s.link with
            heldBlackout := false, reference := none, staleCount := 0, staleStage := 0, staleCause := false })
      ∧ (tables → t.map = ⟨⟨[], .empty⟩, ⟨[], .empty⟩, .a, none, false, none⟩) ∧ (¬ tables → t.map = s.map)
      ∧ (outputs → t.slot = s.slot.bothFree) ∧ (¬ outputs → t.slot = s.slot)
      ∧ (outputs → t.level.channels = (State.powerOn 0).level.channels
          ∧ t.level.parks = (State.powerOn 0).level.parks ∧ t.level.blackout = false
          ∧ t.level.testFull = false ∧ t.level.freezeRequest = false ∧ t.level.frozen = false
          ∧ t.generators = (State.powerOn 0).generators ∧ ∀ i, t.outHigh i = false)
      ∧ (tables → t.level.curves = (State.powerOn 0).level.curves)
      ∧ (¬ tables → t.level.curves = s.level.curves)
      ∧ (¬ outputs → t.generators = s.generators
          ∧ t.level = { s.level with curves := t.level.curves })
      ∧ t.level.fallback = s.level.fallback ∧ t.level.blackoutInForce = s.level.blackoutInForce
      ∧ t.time = s.time ∧ t.choices = s.choices ∧ t.pending = s.pending
      ∧ (scope = .node → t.sense = (State.powerOn s.sense.pins).sense
          ∧ t.agent.params = (State.powerOn 0).agent.params)
      ∧ (scope ≠ .node → t.sense = s.sense ∧ t.agent.params = s.agent.params)
      ∧ (events → t.agent.mask = 0xFFF ∧ t.agent.flags = 1
          ∧ t.agent.queue = [⟨.nodeStart, .none, s.link.frameClock.setWidth 16,
              0x0100 ||| scope.code.setWidth 16⟩])
      ∧ (¬ events → scope = .outputs ∨ s.map.owed = none → t.agent = { s.agent with resetScope := none })
      ∧ (scope = .tables → ∀ e, s.map.owed = some e →
          t.agent = { (s.raise e).agent with resetScope := none })
      ∧ t.agent.resetScope = none

/-! ## The downstream port and the frame timeout -/

/-- In one byte time the downstream port sends an abort marker that is owed, else the oldest symbol once twenty later
ones have arrived, else idle. -/
def Obligations.SymbolSendTakesTheOldest : Prop :=
  ∀ s : State,
    (s.link.abortNext = true →
        exec .symbolSend s = .next { s with link := { s.link with abortNext := false, linkOut := .abort } })
      ∧ (∀ first later, s.link.abortNext = false → s.link.delay = first :: later → 20 ≤ later.length →
        exec .symbolSend s = .next { s with link := { s.link with delay := later, linkOut := first } })
      ∧ (s.link.abortNext = false → s.link.delay.length ≤ 20 →
        exec .symbolSend s = .next { s with link := { s.link with linkOut := .idle } })

/-- The expiry of the frame timeout takes HUNT and VERIFY to DOWN without an event, and LOCKED to DOWN with LINK_STATE,
both buffers freed and a frame in flight truncated, its abort marker sent next; in DOWN, and where no expiry is due
(the model's guard, log 6), it has no effect. Where a pending reset at which a record is placed meets the expiry, the
order of LINK_STATE and that record is a free value (log 1): the Agent is as one of the two orders leaves it. With
scope OUTPUTS, and with TABLES where nothing is owed, LINK_STATE is raised and the reset leaves it. -/
def Obligations.TimeoutExpiryTakesTheLinkDown : Prop :=
  ∀ (s : State) (sns : Byte),
    let seen : State := { s with sense := { s.sense with pins := sns } }
    ((s.link.timeout = none ∨ ∃ n, s.link.timeout = some n ∧ 2 ≤ n) ∨ s.link.state = .down →
        exec (.frameTimeoutExpiry sns) s = .next seen)
      ∧ ∀ n, s.link.timeout = some n → n ≤ 1 →
        (s.link.state = .hunt ∨ s.link.state = .verify →
            exec (.frameTimeoutExpiry sns) s = .next { seen with link := s.link.down })
          ∧ (s.link.state = .locked → (∀ place slots, s.link.frame ≠ .good place slots) →
              s.agent.resetScope = none →
            exec (.frameTimeoutExpiry sns) s
              = .next (State.raise { seen with link := s.link.down, slot := s.slot.bothFree }
                  (.linkState .locked .down)))
          ∧ (∀ place slots, s.link.state = .locked → s.link.frame = .good place slots →
              s.agent.resetScope = none →
            exec (.frameTimeoutExpiry sns) s
              = .next (State.raise
                  { seen with
                    link := { s.link.down with
                      truncatedFrames := countUp s.link.truncatedFrames, abortNext := true },
                    slot := s.slot.afterBadEnd.bothFree }
                  (.linkState .locked .down)))
          ∧ ∀ place slots scope, s.link.state = .locked → s.link.frame = .good place slots →
              s.agent.resetScope = some scope → ∃ t,
            exec (.frameTimeoutExpiry sns) s = .next t
              ∧ (let cut : State :=
                    { seen with
                      link := { s.link.down with
                        truncatedFrames := countUp s.link.truncatedFrames, abortNext := true },
                      slot := s.slot.afterBadEnd.bothFree }
                 let reset : State := cut.applyReset scope
                 let linkFirst : Agent := ((cut.raise (.linkState .locked .down)).applyReset scope).agent
                 let resetFirst : Agent := (reset.raise (.linkState .locked .down)).agent
                 t.link = reset.link ∧ t.map = reset.map ∧ t.slot = reset.slot ∧ t.level = reset.level
                  ∧ t.generators = reset.generators ∧ t.sense = reset.sense ∧ t.time = reset.time
                  ∧ t.agent.params = reset.agent.params ∧ t.agent.resetScope = none
                  ∧ (t.agent = linkFirst ∨ t.agent = resetFirst)
                  ∧ (scope = .outputs ∨ scope = .tables ∧ s.map.owed = none → t.agent = linkFirst))

/-! ## Events -/

/-- A raised event sets its kind's flag; the mask and the room decide about its record: refused kinds leave none, an
admitted one joins the tail with the low half of the frame clock as its Stamp, and one that finds 32 records is
dropped with QUEUE_LOST set. Nothing else changes. -/
def Obligations.EventsAreFlaggedAndQueued : Prop :=
  ∀ (s : State) (e : Event),
    let t := s.raise e
    let admitted : Prop := s.agent.mask.getLsbD e.kind.code = true
    t = { s with agent := { s.agent with flags := t.agent.flags, queue := t.agent.queue } }
      ∧ t.agent.flags.getLsbD e.kind.code = true
      ∧ (∀ n, n ≠ e.kind.code → n ≠ 12 → t.agent.flags.getLsbD n = s.agent.flags.getLsbD n)
      ∧ (t.agent.flags.getLsbD 12 = true ↔
          s.agent.flags.getLsbD 12 = true ∨ admitted ∧ 32 ≤ s.agent.queue.length)
      ∧ (¬ admitted ∨ 32 ≤ s.agent.queue.length → t.agent.queue = s.agent.queue)
      ∧ (admitted → s.agent.queue.length < 32 →
          t.agent.queue
            = s.agent.queue ++ [⟨e.kind, e.subject, s.link.frameClock.extractLsb' 0 16, e.detail⟩])

/-- The code, Subject byte and Detail of each event kind. That the bits of the Detail to which R186 gives no field are 0,
bits 3 to 0 of the high byte of TABLE_OP_DONE and bits 7 to 2 of the low byte of FALLBACK, is the model's choice
(log 12). -/
def Obligations.EventLayout : Prop :=
  let lays (e : Event) (code : Nat) (subject : Byte) (hi lo : Nat) : Prop :=
    e.kind.code = code ∧ e.subject.byte = subject ∧ e.detail.toNat = hi * 256 + lo
  lays (.nodeStart none) 0 0 0 0 ∧ (∀ scope : Scope, lays (.nodeStart (some scope)) 0 0 1 scope.code.toNat)
    ∧ (∀ old new : LinkState, lays (.linkState old new) 1 0 old.code.toNat new.code.toNat)
    ∧ (∀ old new : Byte, lays (.positionChanged old new) 2 0 old.toNat new.toNat)
    ∧ (∀ expected received : Byte, lays (.indexSlip expected received) 3 0 expected.toNat received.toNat)
    ∧ (∀ count : Nat, count ≤ 128 →
        lays (.bankSwitched .a count) 4 0x40 0 count ∧ lays (.bankSwitched .b count) 4 0x41 0 count)
    ∧ (∀ state : BankState,
        lays (.swapRefused .a state) 5 0x40 0 state.code.toNat
          ∧ lays (.swapRefused .b state) 5 0x41 0 state.code.toNat)
    ∧ (∀ (bank : BankName) (kind : OpKind) (value : Nat), value ≤ 128 →
        let subject : Byte := if bank = .a then 0x40 else 0x41
        let operation : Nat := if kind = .copy then 0 else 128
        lays (.tableOpDone bank kind none value) 6 subject operation value
          ∧ lays (.tableOpDone bank kind (some .slotOrder) value) 6 subject (operation + 32) value
          ∧ lays (.tableOpDone bank kind (some .doubleInsert) value) 6 subject (operation + 48) value)
    ∧ (∀ (stage : Fin 3) (count : Nat), count ≤ 255 → lays (.heartbeat stage count) 7 0 stage.val count)
    ∧ (∀ entry link stale : Bool,
        lays (.fallback entry link stale) 8 0 entry.toNat (link.toNat + 2 * stale.toNat))
    ∧ (∀ levels : Byte, lays (.senseMatch levels) 9 0 0 levels.toNat)
    ∧ (∀ set : Bool, lays (.interlock set) 10 0 0 set.toNat)
    ∧ ∀ (line : Fin 8) (timestamp : BitVec 15),
        lays (.captureOverrun line timestamp) 11 (BitVec.ofNat 8 (128 + line.val)) (timestamp.toNat / 256)
          (timestamp.toNat % 256)

/-- The node status byte carries each condition at its bit. -/
def Obligations.StatusByteConditions : Prop :=
  ∀ s : State,
    (s.statusByte.getLsbD 7 = true ↔ s.agent.queue ≠ []) ∧ s.statusByte.getLsbD 6 = s.level.fallback
      ∧ s.statusByte.getLsbD 5 = s.level.blackoutInForce ∧ s.statusByte.getLsbD 4 = s.sense.active
      ∧ s.statusByte.getLsbD 3 = s.level.frozen ∧ (s.statusByte.getLsbD 2 = true ↔ s.map.active = .b)
      ∧ s.statusByte.getLsbD 1 = s.map.misaligned ∧ (s.statusByte.getLsbD 0 = true ↔ s.map.op ≠ none)

/-! ## The base tick -/

/-- A base tick advances the capture clock, which wraps, counts the frame timeout and the step pattern, and makes a
step tick due when it ends a step whose step tick has not been taken yet; it touches no setting and no block but the
Sense Unit, the timeout and the event queue. From power-on the steps of a cycle end at the base ticks of the table of
section 4.1, and after 256 base ticks the cycle begins again. -/
def Obligations.BaseTickAdvancesTheTimebase : Prop :=
  (((List.range 256).filter fun n => (Timebase.baseTick^[n] Timebase.powerOn).lastOfStep).map (· + 1)
      = [10, 20, 30, 41, 51, 61, 71, 82, 92, 102, 112, 123, 133, 143, 153, 164, 174, 184, 194, 205, 215, 225,
         235, 246, 256])
    ∧ (Timebase.baseTick^[256] Timebase.powerOn).step = 0
    ∧ (Timebase.baseTick^[256] Timebase.powerOn).ticks = 0
    ∧ ∀ (s : State) (sns : Byte), ∃ t,
    exec (.baseTick sns) s = .next t
      ∧ t.time.captureClock.toNat = (s.time.captureClock.toNat + 1) % 32768
      ∧ (let long : Nat := if s.time.step.val ∈ [3, 7, 11, 15, 19, 23] then 11 else 10
         (s.time.ticks + 1 < long →
            t.time.ticks = s.time.ticks + 1 ∧ t.time.step = s.time.step
              ∧ t.time.stepDue = s.time.stepDue ∧ t.time.stepTaken = s.time.stepTaken)
          ∧ (long ≤ s.time.ticks + 1 →
            t.time.ticks = 0 ∧ t.time.step.val = (s.time.step.val + 1) % 25
              ∧ (t.time.stepDue = true ↔ s.time.stepDue = true ∨ s.time.stepTaken = false)
              ∧ t.time.stepTaken = false))
      ∧ t.link = { s.link with timeout := s.link.timeout.map (· - 1) }
      ∧ t.map = s.map ∧ t.slot = s.slot ∧ t.level = s.level ∧ t.generators = s.generators
      ∧ t.agent.params = s.agent.params ∧ t.agent.mask = s.agent.mask
      ∧ t.agent.resetScope = s.agent.resetScope ∧ t.choices = s.choices ∧ t.pending = s.pending
      ∧ t.sense.pins = sns ∧ t.sense.matchMode = s.sense.matchMode ∧ t.sense.armed = s.sense.armed

/-- At a base tick each sense line is sampled and filtered, and a filtered edge that its settings admit is captured
with the advanced capture clock. -/
def Obligations.SenseLinesAreFilteredAndCaptured : Prop :=
  ∀ (s : State) (sns : Byte), ∃ t,
    exec (.baseTick sns) s = .next t ∧ ∀ i : Fin 8,
      let l := s.sense.lines[i]
      let m := t.sense.lines[i]
      let sample : Bool := sns.getLsbD i.val
      let captured : Prop := m.high ≠ l.high ∧ l.captureEnable = true
        ∧ (l.captureEdge = .both ∨ l.captureEdge = .rise ∧ m.high = true
            ∨ l.captureEdge = .fall ∧ m.high = false)
      (m.filterOn = l.filterOn ∧ m.condition = l.condition ∧ m.captureEnable = l.captureEnable
          ∧ m.captureEdge = l.captureEdge)
        ∧ (l.filterOn = true → sample = l.high → m.high = l.high ∧ m.run = 0)
        ∧ (l.filterOn = true → sample ≠ l.high → l.run.val < 3 →
            m.high = l.high ∧ m.run.val = l.run.val + 1)
        ∧ (l.filterOn = true → sample ≠ l.high → l.run = 3 → m.high = sample ∧ m.run = 0)
        ∧ (l.filterOn = false → m.high = sample ∧ m.run = l.run)
        ∧ (captured → m.timestamp = s.time.captureClock + 1 ∧ m.fresh = true ∧ m.overrun = l.fresh)
        ∧ (¬ captured → m.timestamp = l.timestamp ∧ m.fresh = l.fresh ∧ m.overrun = l.overrun)

/-- At a base tick the match is evaluated on the filtered levels and edges: the new Match State, the instance with its
count and SENSE_MATCH, and the interlock it sets; the events follow CAPTURE_OVERRUN records by ascending line. -/
def Obligations.MatchCountsAndTripsTheInterlock : Prop :=
  ∀ (s : State) (sns : Byte), ∃ t,
    exec (.baseTick sns) s = .next t ∧
      (let before (i : Fin 8) : SenseLine := s.sense.lines[i]
       let line (i : Fin 8) : SenseLine := t.sense.lines[i]
       let rises (i : Fin 8) : Prop := (before i).high = false ∧ (line i).high = true
       let falls (i : Fin 8) : Prop := (before i).high = true ∧ (line i).high = false
       let holds : Prop :=
         match s.sense.matchMode with
         | .or => ∃ i, (line i).condition = .low ∧ (line i).high = false
             ∨ (line i).condition = .high ∧ (line i).high = true
         | .and =>
           (∃ i, (line i).condition ∈ [Condition.low, .high, .fall, .rise])
             ∧ ∀ i, ((line i).condition ∈ [Condition.low, .fall] → (line i).high = false)
               ∧ ((line i).condition ∈ [Condition.high, .rise] → (line i).high = true)
       let fires : Prop := s.sense.matchMode = .or ∧ ∃ i,
         (line i).condition = .fall ∧ falls i ∨ (line i).condition = .rise ∧ rises i
           ∨ (line i).condition = .anyEdge ∧ (falls i ∨ rises i)
       let occurs : Prop := fires ∨ holds ∧ s.sense.matchState = false
       (t.sense.matchState = true ↔ holds)
        ∧ (occurs → t.sense.matchCount = s.sense.matchCount + 1)
        ∧ (¬ occurs → t.sense.matchCount = s.sense.matchCount)
        ∧ (t.sense.active = true ↔ s.sense.active = true ∨ occurs ∧ s.sense.armed = true)
        ∧ ∃ overruns matched tripped : List Event,
            t.agent = (overruns ++ matched ++ tripped).foldl
              (fun agent e => agent.take e (s.link.frameClock.setWidth 16)) s.agent
            ∧ overruns.Pairwise (fun e f => e.subject.byte < f.subject.byte)
            ∧ (∀ e, e ∈ overruns ↔ ∃ i : Fin 8, e = .captureOverrun i (before i).timestamp
                ∧ (before i).fresh = true ∧ (before i).captureEnable = true
                ∧ (rises i ∧ (before i).captureEdge ≠ .fall ∨ falls i ∧ (before i).captureEdge ≠ .rise))
            ∧ (occurs → matched = [.senseMatch t.sense.levels]) ∧ (¬ occurs → matched = [])
            ∧ (occurs ∧ s.sense.armed = true ∧ s.sense.active = false → tripped = [.interlock true])
            ∧ (¬ (occurs ∧ s.sense.armed = true ∧ s.sense.active = false) → tripped = []))

/-! ## The step tick -/

/-- A step tick takes each channel through consumption, the loss policy, the fade and the override order, frees the
PENDING buffer, enters or leaves fallback with its event, and hands each demanded level to its generator. Where the
step pattern ends no step it has no effect, which is the model's guard (log 6). That an entry into fallback sets the
target source also right after a reset that arrives together with the step tick is its choice (log 19). -/
def Obligations.StepTickSettlesEachChannel : Prop :=
  ∀ s : State,
    (s.time.stepReady = false → exec .stepTick s = .next s)
      ∧ (s.time.stepReady = true → ∃ t,
        exec .stepTick s = .next t
          ∧ (let cause : Bool := decide (s.link.state ≠ .locked) || s.link.staleCause
             let live : Bool := !cause && !s.level.freezeRequest
             let blackout : Bool := s.level.blackout || s.link.heldBlackout || s.sense.active
             let records : Option (Vector Staged 16) :=
               if s.slot.x.state = .pending then some s.slot.x.records
               else if s.slot.y.state = .pending then some s.slot.y.records else none
             (∀ i : Fin 16,
                let c := s.level.channels[i]
                let consumed : Channel :=
                  match records with
                  | some r =>
                    if live && r[i].fresh then
                      { c with raw := r[i].raw, target := evalCurve s.level.curves c.curve r[i].raw,
                               targetSource := .tap }
                    else c
                  | none => c
                let held : Channel :=
                  if cause && !s.level.fallback then
                    match s.agent.params.lossPolicy with
                    | .hold => consumed
                    | .fallback => { consumed with target := c.fallbackLevel, targetSource := .fallback }
                    | .dark => { consumed with target := 0, current := 0, targetSource := .fallback }
                  else consumed
                let faded : Channel :=
                  if c.enabled then
                    { held with
                      current := .ofNat 16 (fadedLevel held.current.toNat held.target.toNat c.fadeRate.toNat) }
                  else held
                let settled : Channel :=
                  { faded with demanded :=
                      if c.enabled = false then 0
                      else if s.level.parks[i].active then s.level.parks[i].level
                      else if blackout && !c.exempt then 0
                      else if s.level.testFull then 65535
                      else faded.current }
                t.level.channels[i] = settled ∧ t.generators[i] = s.generators[i].step settled)
              ∧ t.level = { s.level with
                  channels := t.level.channels, fallback := cause, frozen := s.level.freezeRequest,
                  blackoutInForce := blackout }
              ∧ (let taken (buffer : Buffer) : Buffer :=
                  if buffer.state = .pending then { buffer with state := .free } else buffer
                 t.slot = { s.slot with x := taken s.slot.x, y := taken s.slot.y })
              ∧ t.agent = (if cause = s.level.fallback then s.agent
                  else (s.raise (.fallback cause (decide (s.link.state ≠ .locked)) s.link.staleCause)).agent)
              ∧ t.link = s.link ∧ t.map = s.map ∧ t.sense = s.sense ∧ t.choices = s.choices
              ∧ t.pending = s.pending ∧ t.time.captureClock = s.time.captureClock
              ∧ t.time.step = s.time.step ∧ t.time.ticks = s.time.ticks))

/-- A curve is evaluated by segment, fraction and a product truncated toward zero; the result lies between the
segment's two points, and the default points stop one unit short in the last segment. -/
def Obligations.CurveEvaluation : Prop :=
  (∀ (curves : Vector (Vector Level 17) 3) (r : Level), evalCurve curves 0 r = r)
    ∧ (∀ (curves : Vector (Vector Level 17) 3) (n : Fin 3) (r : Level) (h : r.toNat / 4096 + 1 < 17),
        let first : Int := ((curves[n])[r.toNat / 4096]).toNat
        let next : Int := ((curves[n])[r.toNat / 4096 + 1]).toNat
        let value : Int := (evalCurve curves n.succ r).toNat
        value = first + ((next - first) * (r.toNat % 4096 : Nat)).tdiv 4096
          ∧ min first next ≤ value ∧ value ≤ max first next ∧ (r.toNat % 4096 = 0 → value = first))
    ∧ (∀ (n : Fin 3) (r : Level), (evalCurve defaultCurves n.succ r).toNat
        = if r.toNat ≤ 61440 then r.toNat else r.toNat - 1)

/-- The fade toward a fixed target never passes it and reaches it after as many steps as the Fade Rate needs: at
once for rate 0, else the distance over the rate, rounded up. -/
def Obligations.FadeReachesItsTarget : Prop :=
  ∀ current target rate : Level,
    let distance : Nat := (target.toNat - current.toNat) + (current.toNat - target.toNat)
    (fadeToward current target rate).toNat = fadedLevel current.toNat target.toNat rate.toNat
      ∧ (rate = 0 → fadeToward current target rate = target)
      ∧ (rate ≠ 0 → ∀ n, (distance + rate.toNat - 1) / rate.toNat ≤ n →
          (fun level => fadeToward level target rate)^[n] current = target)
      ∧ (rate ≠ 0 → ∀ n, n < (distance + rate.toNat - 1) / rate.toNat →
          (fun level => fadeToward level target rate)^[n] current ≠ target)

/-- What a generator does with the demanded level at a step tick, mode by mode; a disabled channel's takes
nothing. -/
def Obligations.GeneratorsFollowTheDemandedLevel : Prop :=
  ∀ (g : Generator) (c : Channel),
    (c.enabled = false → g.step c = g)
      ∧ (c.enabled = true → c.mode = .dim → g.step c = { g with pendingDuty := some c.demanded })
      ∧ (c.enabled = true → c.mode = .switch →
          (c.onThreshold ≤ c.demanded → g.step c = { g with lineActive := true })
            ∧ (c.demanded < c.onThreshold → c.demanded ≤ c.offThreshold →
              g.step c = { g with lineActive := false })
            ∧ (c.demanded < c.onThreshold → c.offThreshold < c.demanded → g.step c = g))
      ∧ (c.enabled = true → c.mode = .strobe →
          let interval : Nat := 2 + (65535 - c.demanded.toNat) / 512
          let started : Generator := { g with
            strobeCycle := true, strobeCount := interval,
            flashRemaining := min c.pulseWidth.toNat (interval - 1), lineActive := true }
          (c.demanded = 0 → g.strobeCycle = true →
              g.step c = { g with
                strobeCycle := false, strobeCount := 0, flashRemaining := 0, lineActive := false })
            ∧ (c.demanded = 0 → g.strobeCycle = false → g.step c = g)
            ∧ (c.demanded ≠ 0 → g.strobeCycle = false ∨ g.strobeCount = 1 → g.step c = started)
            ∧ (c.demanded ≠ 0 → g.strobeCycle = true → 2 ≤ g.strobeCount →
              g.step c = { g with
                strobeCount := g.strobeCount - 1, flashRemaining := g.flashRemaining - 1,
                lineActive := if g.flashRemaining = 1 then false else g.lineActive }))
      ∧ (c.enabled = true → c.mode = .pulse →
          let counted : Generator := { g with
            pulseRemaining := g.pulseRemaining - 1,
            lineActive := if g.pulseRemaining = 1 then false else g.lineActive }
          (c.demanded ≤ c.offThreshold → g.step c = { counted with pulseArmed := true })
            ∧ (c.offThreshold < c.demanded → c.demanded < c.onThreshold ∨ g.pulseArmed = false →
              g.step c = counted)
            ∧ (c.offThreshold < c.demanded → c.onThreshold ≤ c.demanded → g.pulseArmed = true →
              (2 ≤ g.pulseRemaining ∧ c.retrigger = false → g.step c = { counted with pulseArmed := false })
                ∧ (g.pulseRemaining ≤ 1 ∨ c.retrigger = true →
                  g.step c = { counted with
                    pulseArmed := false, pulseRemaining := c.pulseWidth.toNat, lineActive := true })))

/-! ## The PWM clock -/

/-- A PWM clock advances an enabled channel's counter, and in DIM the line is ACTIVE while the counter is below the
Active Duty; at Running Period − 1 it ends the period. PERIOD_END applies a Pending Period and, in DIM, a Pending
Duty, whose duty is v × P ÷ 65536 or P at full; DIM_DUTY_END brings the counter to the Active Duty. A disabled
channel takes none of them. -/
def Obligations.ClockAndPeriodOfAChannel : Prop :=
  ∀ (s : State) (i : Fin 16),
    let g := s.generators[i]
    let mode := s.level.channels[i].mode
    let becomes (c : Instr) (h : Generator) : Prop :=
      exec c s = .next { s with generators := s.generators.set i h }
    let running := g.pendingPeriod.getD g.runningPeriod
    let ended : Generator := { g with counter := 0, runningPeriod := running, pendingPeriod := none }
    let applied := g.pendingDuty.getD g.appliedLevel
    let duty : Nat :=
      if g.pendingPeriod = none ∧ g.pendingDuty = none then g.activeDuty
      else if applied.toNat = 65535 then running.toNat else applied.toNat * running.toNat / 65536
    let dimEnded : Generator := { ended with
      appliedLevel := applied, pendingDuty := none, activeDuty := duty, lineActive := decide (0 < duty) }
    (s.level.channels[i].enabled = false →
        exec (.pwmClock i) s = .next s ∧ exec (.periodEnd i) s = .next s ∧ exec (.dimDutyEnd i) s = .next s)
      ∧ (s.level.channels[i].enabled = true →
        (mode = .dim → becomes (.periodEnd i) dimEnded) ∧ (mode ≠ .dim → becomes (.periodEnd i) ended)
          ∧ (g.counter + 1 < g.runningPeriod.toNat →
              (mode = .dim → becomes (.pwmClock i) { g with
                counter := g.counter + 1, lineActive := decide (g.counter + 1 < g.activeDuty) })
              ∧ (mode ≠ .dim → becomes (.pwmClock i) { g with counter := g.counter + 1 }))
          ∧ (g.runningPeriod.toNat = g.counter + 1 →
              (mode = .dim → becomes (.pwmClock i) dimEnded) ∧ (mode ≠ .dim → becomes (.pwmClock i) ended))
          ∧ (mode = .dim → g.counter < g.activeDuty → g.activeDuty < g.runningPeriod.toNat →
              becomes (.dimDutyEnd i) { g with counter := g.activeDuty, lineActive := false })
          ∧ (mode ≠ .dim ∨ g.activeDuty ≤ g.counter ∨ g.runningPeriod.toNat ≤ g.activeDuty →
              exec (.dimDutyEnd i) s = .next s))

/-- PERIOD_END stands for the PWM clocks up to and with the channel's next period end, and DIM_DUTY_END for those that
bring the counter to the Active Duty: the model's reading of the two rows (log 7). -/
def Obligations.PeriodEndIsARunOfClocks : Prop :=
  ∀ (s : State) (i : Fin 16), s.outputsInOrder → s.level.channels[i].enabled = true →
    let g := s.generators[i]
    let clocked (n : Nat) (u : State) : Prop :=
      ∃ path : Nat → State, path 0 = s ∧ path n = u
        ∧ ∀ k, k < n → exec (.pwmClock i) (path k) = .next (path (k + 1))
    (∃ u, exec (.periodEnd i) s = .next u ∧ clocked (g.runningPeriod.toNat - g.counter) u)
      ∧ (s.level.channels[i].mode = .dim → g.counter < g.activeDuty →
          g.activeDuty < g.runningPeriod.toNat →
          ∃ u, exec (.dimDutyEnd i) s = .next u ∧ clocked (g.activeDuty - g.counter) u)

/-! ## The table operation unit -/

/-- One entry copied, and one entry examined. COPY_ENTRY_COPIED appends the source's entry at the progress index;
COMMIT_ENTRY_EXAMINED moves on from an entry without a fault and stops at one with a fault. Neither has an effect once
its walk has ended or where the unit holds no such operation. -/
def Obligations.TableOperationsAdvance : Prop :=
  ∀ s : State,
    let shadow := s.map.active.other
    let source := (s.map.bank s.map.active).entries
    let target := s.map.bank shadow
    ((∀ op, s.map.op = some op → op.kind ≠ .copy) → exec .copyEntryCopied s = .next s)
      ∧ ((∀ op, s.map.op = some op → op.kind ≠ .commit ∨ op.found ≠ none) →
          exec .commitEntryExamined s = .next s)
      ∧ (∀ progress, s.map.op = some ⟨.copy, shadow, progress, none⟩ →
          (source.length ≤ progress → exec .copyEntryCopied s = .next s)
            ∧ ∀ entry, source[progress]? = some entry →
              exec .copyEntryCopied s = .next { s with map :=
                { s.map.setBank shadow { target with entries := target.entries ++ [entry] } with
                  op := some ⟨.copy, shadow, progress + 1, none⟩ } })
      ∧ ∀ progress, s.map.op = some ⟨.commit, shadow, progress, none⟩ →
          (target.entries.length ≤ progress → exec .commitEntryExamined s = .next s)
            ∧ (progress < target.entries.length → (∀ fault, ¬ commitFaultAt target.entries progress fault) →
              exec .commitEntryExamined s
                = .next { s with map := { s.map with op := some ⟨.commit, shadow, progress + 1, none⟩ } })
            ∧ ∀ fault, commitFaultAt target.entries progress fault →
              exec .commitEntryExamined s
                = .next { s with map := { s.map with op := some ⟨.commit, shadow, progress, some fault⟩ } }

/-- A COPY ends with the source's entries in the target, in EDITING; a COMMIT ends with the bank READY, or in EDITING
at the first fault; the unit is idle and TABLE_OP_DONE is raised with the result. Where entries remain, the command
stands for them too, which is the model's reading (log 7). The completion can come in two parts, the model's choice
(log 17): after the first the unit is idle and TABLE_OP_DONE is owed, and the node status byte shows Table Op Busy clear
and Attention not yet set by it (R40, R178); the second places what is owed. Where no such operation is in flight there
is nothing to end, and what is owed is all that is placed. -/
def Obligations.TableOperationsComplete : Prop :=
  ∀ s : State, s.map.inOrder →
    let placed : State :=
      match s.map.owed with
      | none => s
      | some e => State.raise { s with map := { s.map with owed := none } } e
    let ends (row : Completion → Instr) (target : BankName) (bank : Bank) (e : Event) : Prop :=
      let map : MapStore := { s.map.setBank target bank with op := none, owed := none }
      exec (row .whole) s = .next (State.raise { placed with map := map } e)
        ∧ ∃ t, exec (row .unitIdle) s = .next t ∧ t = { placed with map := { map with owed := some e } }
          ∧ t.statusByte.getLsbD 0 = false ∧ (t.statusByte.getLsbD 7 = true ↔ placed.agent.queue ≠ [])
    let absent (row : Completion → Instr) : Prop :=
      exec (row .whole) s = .next placed ∧ exec (row .unitIdle) s = .next s
    (exec (.copyComplete .recordPlaced) s = .next placed ∧ exec (.commitComplete .recordPlaced) s = .next placed)
      ∧ ((∀ op, s.map.op = some op → op.kind ≠ .copy) → absent (.copyComplete ·))
      ∧ ((∀ op, s.map.op = some op → op.kind ≠ .commit) → absent (.commitComplete ·))
      ∧ (∀ op, s.map.op = some op → op.kind = .copy →
          let source := (s.map.bank s.map.active).entries
          ends (.copyComplete ·) op.target ⟨source, .editing⟩ (.tableOpDone op.target .copy none source.length))
      ∧ ∀ op, s.map.op = some op → op.kind = .commit →
          let entries := (s.map.bank op.target).entries
          ((∀ i fault, i < entries.length → ¬ commitFaultAt entries i fault) →
              ends (.commitComplete ·) op.target ⟨entries, .ready⟩
                (.tableOpDone op.target .commit none entries.length))
            ∧ ∀ i fault, commitFaultAt entries i fault →
              (∀ j other, j < i → ¬ commitFaultAt entries j other) →
              ends (.commitComplete ·) op.target ⟨entries, .editing⟩
                (.tableOpDone op.target .commit (some fault) i)

/-! ## Bank requests -/

/-- The refusals of a bank request up to step 3, in their order: no such bank RANGE, the active bank LOCKED but for
READ_ENTRY, a bank under operation BUSY. -/
def Obligations.BankRequestsAreRefusedInOrder : Prop :=
  ∀ (i : Instr) (c : RequestCode) (q : Req) (s : State),
    requestRow i = some (c, q) → s.addressed q →
    c ∈ [RequestCode.writeEntry, .readEntry, .truncateBank, .clearBank, .copyBank, .commitBank] →
      let refused (status : Status) : Prop :=
        exec i s = .next (s.writeReply c.byte q ⟨status, q.object, q.index, ⟨0, 0, 0, 0, 0, 0⟩, 0⟩)
      (2 ≤ q.object.toNat → refused .range)
        ∧ ∀ name : BankName, q.object = name.code →
          (name = s.map.active → c ≠ .readEntry → refused .locked)
            ∧ (name ≠ s.map.active ∨ c = .readEntry →
                (s.map.bank name).state = .copying ∨ (s.map.bank name).state = .checking → refused .busy)

/-- WRITE_ENTRY to an open bank: the index and then the fields are tested; an accepted write appends or replaces the
entry that the Arguments carry, whole, and leaves the bank in EDITING. -/
def Obligations.EntriesAreWritten : Prop :=
  ∀ (q : Req) (s : State) (name : BankName), s.addressed q → s.bankOpen q name →
    let bank := s.map.bank name
    let refused (status : Status) : Prop := exec (.writeEntry q) s = .next (s.writeReply 0x10 q (answer q status))
    let stored (entries : List Entry) : Prop :=
      exec (.writeEntry q) s
        = .next (State.writeReply { s with map := s.map.setBank name ⟨entries, .editing⟩ } 0x10 q (answer q .ok))
    (bank.count < q.index.toNat → refused .range)
      ∧ (q.index.toNat = bank.count → bank.count = 128 → refused .full)
      ∧ (q.index.toNat ≤ bank.count → ¬ (q.index.toNat = bank.count ∧ bank.count = 128) →
          (∀ e, ¬ carriesEntry q.args e) → refused .range)
      ∧ ∀ e, carriesEntry q.args e →
          (q.index.toNat = bank.count → bank.count ≠ 128 → stored (bank.entries ++ [e]))
            ∧ (q.index.toNat < bank.count → stored (bank.entries.set q.index.toNat e))

/-- READ_ENTRY answers with the entry at the index, its absent fields 0 and marked absent, and changes no state. -/
def Obligations.EntriesAreRead : Prop :=
  ∀ (q : Req) (s : State) (name : BankName),
    s.addressed q → q.object = name.code →
    (s.map.bank name).state ≠ .copying → (s.map.bank name).state ≠ .checking →
      ((s.map.bank name).count ≤ q.index.toNat →
          exec (.readEntry q) s = .next (s.writeReply 0x11 q (answer q .range)))
        ∧ ∀ e, (s.map.bank name).entries[q.index.toNat]? = some e → ∃ (object : Byte) (a : Args),
          exec (.readEntry q) s = .next (s.writeReply 0x11 q ⟨.ok, object, q.index, a, 0⟩)
            ∧ carriesEntry a e
            ∧ (∀ channel part, e.action = .tap channel part → a.a5 = 0 ∧ a.a6 = 0)
            ∧ (∀ source, e.action = .insert source →
                a.a3 = 0 ∧ a.a4 = 0 ∧ (source.code.2 = none → a.a6 = 0))
            ∧ (object.getLsbD 0 = true ↔ e.isInsert = false) ∧ (object.getLsbD 1 = true ↔ e.isInsert = false)
            ∧ (object.getLsbD 2 = true ↔ e.isInsert = true)
            ∧ (object.getLsbD 3 = true ↔ ∃ source argument,
                e.action = .insert source ∧ source.code.2 = some argument)

/-- TRUNCATE_BANK, CLEAR_BANK, COPY_BANK and COMMIT_BANK on an open bank: its entries, its state, the operation that
starts, and the reply. -/
def Obligations.BankRequestsAreCarriedOut : Prop :=
  ∀ (q : Req) (s : State) (name : BankName), s.addressed q → s.bankOpen q name →
    let bank := s.map.bank name
    let becomes (i : Instr) (code : Byte) (m : MapStore) (status : Status) : Prop :=
      exec i s = .next (State.writeReply { s with map := m } code q (answer q status))
    (bank.count < q.index.toNat → becomes (.truncateBank q) 0x12 s.map .range)
      ∧ (q.index.toNat ≤ bank.count →
          becomes (.truncateBank q) 0x12
            (s.map.setBank name
              ⟨bank.entries.take q.index.toNat, if q.index.toNat = 0 then .empty else .editing⟩) .ok)
      ∧ becomes (.clearBank q) 0x13 (s.map.setBank name ⟨[], .empty⟩) .ok
      ∧ becomes (.copyBank q) 0x14
          { s.map.setBank name ⟨[], .copying⟩ with op := some ⟨.copy, name, 0, none⟩ } .accepted
      ∧ (bank.state = .empty → becomes (.commitBank q) 0x15 s.map .state)
      ∧ (bank.state ≠ .empty →
          becomes (.commitBank q) 0x15
            { s.map.setBank name { bank with state := .checking } with
              op := some ⟨.commit, name, 0, none⟩ } .accepted)

/-! ## Identity, status and node parameters -/

/-- READ_IDENTITY is answered OK with vendor code 5C31h, part code 1608 and revision 1, and changes no state; it takes
no Object, Index or Arguments. -/
def Obligations.IdentityIsAnswered : Prop :=
  ∀ (q : Req) (s : State), s.addressed q → ∃ a : Args,
    exec (.readIdentity q) s = .next (s.writeReply 0x01 q ⟨.ok, q.object, q.index, a, 0⟩)
      ∧ wordAt a.a1 a.a2 = 0x5C31 ∧ wordAt a.a3 a.a4 = 1608 ∧ a.a5 = 1 ∧ a.a6 = 0

/-- READ_STATUS returns the items of each page at their places and changes no state; an Object above 3, and a channel
above 15 on the PARK page, are refused with RANGE. -/
def Obligations.StatusPages : Prop :=
  ∀ (q : Req) (s : State), s.addressed q →
    let page (a : Args) : Prop :=
      exec (.readStatus q) s = .next (s.writeReply 0x02 q ⟨.ok, q.object, q.index, a, 0⟩)
    let refused : Prop := exec (.readStatus q) s = .next (s.writeReply 0x02 q (answer q .range))
    (q.object = 0 → ∃ a, page a
        ∧ a.a1.toNat / 64 = 3 ∧ a.a1.getLsbD 5 = s.agent.params.passive ∧ a.a1.getLsbD 4 = s.link.staleCause
        ∧ a.a1.toNat / 4 % 4 = s.link.staleStage.val ∧ a.a1.getLsbD 1 = s.link.reference.isSome
        ∧ a.a2 = s.link.position ∧ a.a3.toNat = s.link.badHeaders % 256 ∧ a.a4 = s.link.reference.getD 0
        ∧ a.a5.toNat = s.link.staleCount % 256 ∧ a.a6 = 0)
      ∧ (q.object = 1 → ∃ a, page a
        ∧ (a.a1.getLsbD 7 = true ↔ s.map.active = .b) ∧ a.a1.getLsbD 6 = s.map.misaligned
        ∧ (s.map.op = none → a.a1.toNat / 16 % 4 = 0)
        ∧ (∀ op, s.map.op = some op → (op.kind = .copy → a.a1.toNat / 16 % 4 = 1)
            ∧ (op.kind = .commit → a.a1.toNat / 16 % 4 = 2) ∧ (a.a1.getLsbD 3 = true ↔ op.target = .b))
        ∧ a.a2 = s.map.bankA.state.code ∧ a.a3.toNat = s.map.bankA.count % 256
        ∧ a.a4 = s.map.bankB.state.code ∧ a.a5.toNat = s.map.bankB.count % 256 ∧ a.a6 = 0)
      ∧ (q.object = 2 → ∃ a, page a
        ∧ a.a1.getLsbD 7 = s.level.fallback ∧ a.a1.getLsbD 6 = false ∧ a.a1.getLsbD 5 = s.link.staleCause
        ∧ a.a1.getLsbD 4 = s.level.blackout ∧ a.a1.getLsbD 3 = s.link.heldBlackout
        ∧ a.a1.getLsbD 2 = s.sense.active ∧ a.a1.getLsbD 1 = s.sense.armed
        ∧ a.a1.getLsbD 0 = s.level.blackoutInForce ∧ a.a2.getLsbD 7 = s.level.testFull
        ∧ a.a2.getLsbD 6 = s.level.freezeRequest ∧ a.a2.getLsbD 5 = s.level.frozen
        ∧ a.a3.toNat = s.agent.queue.length % 256 ∧ a.a4 = s.statusByte ∧ a.a5 = 0 ∧ a.a6 = 0)
      ∧ (∀ channel : Fin 16, q.object = 3 → q.index.toNat = channel.val → ∃ a, page a
        ∧ a.a1.toNat = (s.level.parks[channel]).active.toNat
        ∧ wordAt a.a2 a.a3 = (s.level.parks[channel]).level ∧ a.a4 = 0 ∧ a.a5 = 0 ∧ a.a6 = 0)
      ∧ (q.object = 3 → 16 ≤ q.index.toNat → refused) ∧ (4 ≤ q.object.toNat → refused)

/-- SET_NODE stores a valid value of each node parameter and refuses any other with RANGE; READ_NODE returns the stored
value. An Object above 4 is refused by both. -/
def Obligations.NodeParameters : Prop :=
  ∀ (q : Req) (s : State), s.addressed q →
    let p := s.agent.params
    let v := q.args.a1
    let refused : Prop := exec (.setNode q) s = .next (s.writeReply 0x03 q (answer q .range))
    let stored (params : NodeParams) : Prop :=
      exec (.setNode q) s
        = .next (State.writeReply { s with agent := { s.agent with params := params } } 0x03 q (answer q .ok))
    let reads (value : Byte) : Prop :=
      exec (.readNode q) s
        = .next (s.writeReply 0x04 q ⟨.ok, q.object, q.index, ⟨value, 0, 0, 0, 0, 0⟩, 0⟩)
    (q.object = 0 →
        (v = 0 → stored { p with lossPolicy := .hold }) ∧ (v = 1 → stored { p with lossPolicy := .fallback })
          ∧ (v = 2 → stored { p with lossPolicy := .dark }) ∧ (3 ≤ v.toNat → refused)
          ∧ (p.lossPolicy = .hold → reads 0) ∧ (p.lossPolicy = .fallback → reads 1)
          ∧ (p.lossPolicy = .dark → reads 2))
      ∧ (q.object = 1 → stored { p with frameTimeout := v } ∧ reads p.frameTimeout)
      ∧ (q.object = 2 →
        (p.staleLimit ≠ 0 ∧ p.staleLimit.toNat < v.toNat → refused)
          ∧ (p.staleLimit = 0 ∨ v.toNat ≤ p.staleLimit.toNat → stored { p with staleWarn := v })
          ∧ reads p.staleWarn)
      ∧ (q.object = 3 →
        (v.toNat < p.staleWarn.toNat → refused) ∧ (p.staleWarn.toNat ≤ v.toNat → stored { p with staleLimit := v })
          ∧ reads p.staleLimit)
      ∧ (q.object = 4 →
        (v = 0 → stored { p with passive := false }) ∧ (v = 1 → stored { p with passive := true })
          ∧ (2 ≤ v.toNat → refused) ∧ (p.passive = false → reads 0) ∧ (p.passive = true → reads 1))
      ∧ (5 ≤ q.object.toNat →
        refused ∧ exec (.readNode q) s = .next (s.writeReply 0x04 q (answer q .range)))

/-! ## Channels and curves -/

/-- WRITE_CHANNEL of each group. Each group is written whole or refused. An OUTPUT write to a disabled channel is tested
for range and may enable it, which starts its generator; to an enabled one it meets the write locks first, makes a new
Period pending, and may disable it, which stops its generator. -/
def Obligations.ChannelGroupsAreWritten : Prop :=
  ∀ (q : Req) (s : State), s.addressed q →
    let refused (i : Instr) (object : Byte) (status : Status) : Prop :=
      exec i s = .next (s.writeReply 0x20 { q with object := object } (answer { q with object := object } status))
    let a := q.args
    (16 ≤ q.index.toNat →
        refused (.writeChannelOutput q) 0 .range ∧ refused (.writeChannelLevel q) 1 .range
          ∧ refused (.writeChannelTrigger q) 2 .range)
      ∧ ∀ channel : Fin 16, q.index.toNat = channel.val →
        let c := s.level.channels[channel]
        let g := s.generators[channel]
        let wrote (i : Instr) (object : Byte) (d : Channel) (h : Generator) : Prop :=
          exec i s
            = .next (State.writeReply
                { s with level := { s.level with channels := s.level.channels.set channel d },
                         generators := s.generators.set channel h }
                0x20 { q with object := object } (answer { q with object := object } .ok))
        (let period := wordAt a.a2 a.a3
         let phase := wordAt a.a4 a.a5
         let inRange : Prop := 16 ≤ period.toNat ∧ phase.toNat < period.toNat
         let enable : Prop := 128 ≤ a.a1.toNat
         let stopped : Generator := ⟨false, 0, period, none, 0, 0, none, false, 0, 0, false, 0⟩
         let started : Generator := ⟨false, phase.toNat, period, none, 0, 0, none, false, 0, 0, true, 0⟩
         (c.enabled = false →
            (4 ≤ a.a1.toNat % 16 ∨ ¬ inRange → refused (.writeChannelOutput q) 0 .range)
              ∧ ∀ (mode : Mode) (divider : Divider),
                mode.code.toNat = a.a1.toNat % 16 → divider.code.toNat = a.a1.toNat / 16 % 4 → inRange →
                let d : Channel := { c with
                  mode := mode, divider := divider, period := period, phase := phase,
                  inverted := a.a1.getLsbD 6 }
                (¬ enable → wrote (.writeChannelOutput q) 0 d { g with runningPeriod := period })
                  ∧ (enable → wrote (.writeChannelOutput q) 0 { d with enabled := true } started))
          ∧ (c.enabled = true →
            let meets : Prop := c.mode.code.toNat ≠ a.a1.toNat % 16
              ∨ c.divider.code.toNat ≠ a.a1.toNat / 16 % 4 ∨ c.phase ≠ phase ∨ c.inverted ≠ a.a1.getLsbD 6
            (meets → refused (.writeChannelOutput q) 0 .locked)
              ∧ (¬ meets → ¬ inRange → refused (.writeChannelOutput q) 0 .range)
              ∧ (¬ meets → inRange → enable →
                wrote (.writeChannelOutput q) 0 { c with period := period }
                  (if period = c.period then g
                    else { g with pendingPeriod := if period = g.runningPeriod then none else some period }))
              ∧ (¬ meets → inRange → ¬ enable →
                wrote (.writeChannelOutput q) 0 { c with period := period, enabled := false, demanded := 0 }
                  stopped)))
          ∧ (4 ≤ a.a1.toNat ∨ 2 ≤ a.a6.toNat → refused (.writeChannelLevel q) 1 .range)
          ∧ (∀ curve : Fin 4, a.a1.toNat = curve.val → a.a6.toNat ≤ 1 →
            wrote (.writeChannelLevel q) 1
              { c with curve := curve, fadeRate := wordAt a.a2 a.a3, fallbackLevel := wordAt a.a4 a.a5,
                       exempt := decide (a.a6.toNat = 1) } g)
          ∧ (let on := wordAt a.a1 a.a2
             let off := wordAt a.a3 a.a4
             let valid : Prop := on ≠ 0 ∧ off.toNat < on.toNat ∧ a.a5 ≠ 0 ∧ a.a6.toNat ≤ 1
             (¬ valid → refused (.writeChannelTrigger q) 2 .range)
              ∧ (valid →
                wrote (.writeChannelTrigger q) 2
                  { c with onThreshold := on, offThreshold := off, pulseWidth := a.a5,
                           retrigger := decide (a.a6.toNat = 1) } g))

/-- READ_CHANNEL returns the fields of a group at their places and changes no state. -/
def Obligations.ChannelGroupsAreRead : Prop :=
  ∀ (q : Req) (s : State), s.addressed q →
    let refused : Prop := exec (.readChannel q) s = .next (s.writeReply 0x21 q (answer q .range))
    let reads (object : Byte) (index : BitVec 16) (a : Args) : Prop :=
      exec (.readChannel q) s = .next (s.writeReply 0x21 q ⟨.ok, object, index, a, 0⟩)
    (16 ≤ q.index.toNat → refused) ∧ (4 ≤ q.object.toNat → refused)
      ∧ ∀ channel : Fin 16, q.index.toNat = channel.val →
        let c := s.level.channels[channel]
        (q.object = 0 → ∃ a, reads q.object q.index a
            ∧ a.a1.toNat = 128 * c.enabled.toNat + 64 * c.inverted.toNat + 16 * c.divider.code.toNat
                + c.mode.code.toNat
            ∧ wordAt a.a2 a.a3 = c.period ∧ wordAt a.a4 a.a5 = c.phase ∧ a.a6 = 0)
          ∧ (q.object = 1 → ∃ a, reads q.object q.index a
            ∧ a.a1.toNat = c.curve.val ∧ wordAt a.a2 a.a3 = c.fadeRate ∧ wordAt a.a4 a.a5 = c.fallbackLevel
            ∧ a.a6.toNat = c.exempt.toNat)
          ∧ (q.object = 2 → ∃ a, reads q.object q.index a
            ∧ wordAt a.a1 a.a2 = c.onThreshold ∧ wordAt a.a3 a.a4 = c.offThreshold ∧ a.a5 = c.pulseWidth
            ∧ a.a6.toNat = c.retrigger.toNat)
          ∧ (q.object = 3 → ∃ source a, reads source c.demanded a
            ∧ (c.targetSource = .tap → source = 0) ∧ (c.targetSource = .fallback → source = 1)
            ∧ (c.targetSource = .reset → source = 2)
            ∧ wordAt a.a1 a.a2 = c.raw ∧ wordAt a.a3 a.a4 = c.target ∧ wordAt a.a5 a.a6 = c.current)

/-- WRITE_CURVE tests curve, then curve 0, then count and last point, and stores its points; READ_CURVE returns up to
three points and their number, curve 0 reading as the default points. -/
def Obligations.CurvesAreWrittenAndRead : Prop :=
  ∀ (q : Req) (s : State), s.addressed q →
    let first := q.index.toNat
    let value (j : Nat) : Level :=
      if j = 0 then wordAt q.args.a1 q.args.a2
      else if j = 1 then wordAt q.args.a3 q.args.a4 else wordAt q.args.a5 q.args.a6
    let refused (status : Status) : Prop := exec (.writeCurve q) s = .next (s.writeReply 0x22 q (answer q status))
    let valid : Prop := 1 ≤ q.count.toNat ∧ q.count.toNat ≤ 3 ∧ first + q.count.toNat - 1 ≤ 16
    (4 ≤ q.object.toNat → refused .range) ∧ (q.object = 0 → refused .locked)
      ∧ (∀ n : Fin 3, q.object.toNat = n.val + 1 →
        (¬ valid → refused .range)
          ∧ (valid → ∃ points : Vector Level 17,
            exec (.writeCurve q) s
                = .next (State.writeReply
                    { s with level := { s.level with curves := s.level.curves.set n points } }
                    0x22 q (answer q .ok))
              ∧ ∀ k : Fin 17, points[k] =
                  if first ≤ k.val ∧ k.val < first + q.count.toNat then value (k.val - first)
                  else (s.level.curves[n])[k]))
      ∧ (4 ≤ q.object.toNat ∨ 16 < first →
        exec (.readCurve q) s = .next (s.writeReply 0x23 q (answer q .range)))
      ∧ (q.object.toNat < 4 → first ≤ 16 → ∃ (a : Args) (count : Byte),
        exec (.readCurve q) s = .next (s.writeReply 0x23 q ⟨.ok, q.object, q.index, a, count⟩)
          ∧ count.toNat = min 3 (17 - first)
          ∧ (let returned (j : Nat) (v : Level) : Prop :=
              (16 < first + j → v = 0)
                ∧ ∀ k : Fin 17, k.val = first + j →
                  (q.object = 0 → v.toNat = if k.val = 16 then 65535 else k.val * 4096)
                    ∧ ∀ n : Fin 3, q.object.toNat = n.val + 1 → v = (s.level.curves[n])[k]
             returned 0 (wordAt a.a1 a.a2) ∧ returned 1 (wordAt a.a3 a.a4) ∧ returned 2 (wordAt a.a5 a.a6)))

/-! ## Sense requests, overrides, freeze and the interlock -/

/-- WRITE_SENSE for a line and for the global settings, tested whole; and READ_SENSE, which changes nothing. That the
Run Count becomes 0 also where the Filter changes from ON to OFF is the model's reading of R129 (log 14). -/
def Obligations.SenseSettingsAndRecords : Prop :=
  ∀ (q : Req) (s : State), s.addressed q →
    let a := q.args
    let p : Req := { q with index := 8 }
    let reads (object : Byte) (b : Args) : Prop :=
      exec (.readSense q) s = .next (s.writeReply 0x25 q ⟨.ok, object, q.index, b, 0⟩)
    (9 ≤ q.index.toNat →
        exec (.writeSenseLine q) s = .next (s.writeReply 0x24 q (answer q .range))
          ∧ exec (.readSense q) s = .next (s.writeReply 0x25 q (answer q .range)))
      ∧ (∀ n : Fin 8, q.index.toNat = n.val →
        let l := s.sense.lines[n]
        let valid : Prop := a.a1.toNat ≤ 5 ∧ a.a2.toNat ≤ 1 ∧ a.a3.toNat ≤ 1 ∧ a.a4.toNat ≤ 2
        (¬ valid → exec (.writeSenseLine q) s = .next (s.writeReply 0x24 q (answer q .range)))
          ∧ (∀ (condition : Condition) (edge : CaptureEdge), condition.code = a.a1 → edge.code = a.a4 →
              a.a2.toNat ≤ 1 → a.a3.toNat ≤ 1 →
            exec (.writeSenseLine q) s
              = .next (State.writeReply
                  { s with sense := { s.sense with
                    lines := s.sense.lines.set n { l with
                      condition := condition, filterOn := decide (a.a2.toNat = 0),
                      captureEnable := decide (a.a3.toNat = 1), captureEdge := edge,
                      run := if l.filterOn = decide (a.a2.toNat = 0) then l.run else 0,
                      fresh := if a.a3.toNat = 0 then false else l.fresh } } }
                  0x24 q (answer q .ok)))
          ∧ ∃ object b, reads object b
            ∧ object.getLsbD 0 = l.high ∧ object.getLsbD 1 = l.overrun
            ∧ b.a1 = l.condition.code ∧ b.a2.toNat = (!l.filterOn).toNat ∧ b.a3.toNat = l.captureEnable.toNat
            ∧ b.a4 = l.captureEdge.code ∧ b.a5.getLsbD 7 = l.fresh
            ∧ b.a5.toNat % 128 * 256 + b.a6.toNat = l.timestamp.toNat)
      ∧ (2 ≤ a.a1.toNat ∨ 2 ≤ a.a2.toNat →
        exec (.writeSenseGlobal q) s = .next (s.writeReply 0x24 p (answer p .range)))
      ∧ (a.a1.toNat ≤ 1 → a.a2.toNat ≤ 1 →
        exec (.writeSenseGlobal q) s
          = .next (State.writeReply
              { s with sense := { s.sense with
                matchMode := if a.a1.toNat = 0 then .or else .and, armed := decide (a.a2.toNat = 1) } }
              0x24 p (answer p .ok)))
      ∧ (q.index.toNat = 8 → ∃ b, reads q.object b
        ∧ (b.a1 = 0 ↔ s.sense.matchMode = .or) ∧ (b.a1 = 1 ↔ s.sense.matchMode = .and)
        ∧ b.a2.toNat = s.sense.armed.toNat ∧ b.a3.toNat = s.sense.active.toNat
        ∧ b.a4.toNat = s.sense.matchState.toNat ∧ b.a5 = s.sense.matchCount ∧ b.a6 = 0)

/-- SET_OVERRIDE of each override, FREEZE, THAW and CLEAR_INTERLOCK: what each stores and answers. -/
def Obligations.OverridesFreezeAndInterlock : Prop :=
  ∀ (q : Req) (s : State), s.addressed q →
    let v := q.args.a1.toNat
    let leaves (i : Instr) (code : Byte) (p : Req) (t : State) (status : Status) : Prop :=
      exec i s = .next (t.writeReply code p (answer p status))
    let withLevel (l : LevelEngine) : State := { s with level := l }
    let blackout : Req := { q with object := 0 }
    let testFull : Req := { q with object := 1 }
    let park : Req := { q with object := 2 }
    (2 ≤ v →
        leaves (.setOverrideBlackout q) 0x30 blackout s .range
          ∧ leaves (.setOverrideTestFull q) 0x30 testFull s .range
          ∧ leaves (.setOverridePark q) 0x30 park s .range)
      ∧ (16 ≤ q.index.toNat → leaves (.setOverridePark q) 0x30 park s .range)
      ∧ (v ≤ 1 →
        leaves (.setOverrideBlackout q) 0x30 blackout
            (withLevel { s.level with blackout := decide (v = 1) }) .ok
          ∧ leaves (.setOverrideTestFull q) 0x30 testFull
            (withLevel { s.level with testFull := decide (v = 1) }) .ok)
      ∧ (∀ channel : Fin 16, q.index.toNat = channel.val →
        (v = 1 → leaves (.setOverridePark q) 0x30 park
            (withLevel { s.level with
              parks := s.level.parks.set channel ⟨true, wordAt q.args.a2 q.args.a3⟩ }) .ok)
          ∧ (v = 0 → leaves (.setOverridePark q) 0x30 park
            (withLevel { s.level with
              parks := s.level.parks.set channel ⟨false, (s.level.parks[channel]).level⟩ }) .ok))
      ∧ leaves (.freeze q) 0x31 q (withLevel { s.level with freezeRequest := true }) .ok
      ∧ leaves (.thaw q) 0x32 q (withLevel { s.level with freezeRequest := false }) .ok
      ∧ (s.sense.active = true → s.sense.matchState = false →
        leaves (.clearInterlock q) 0x33 q
          (State.raise { s with sense := { s.sense with active := false } } (.interlock false)) .ok)
      ∧ (s.sense.active = true → s.sense.matchState = true → leaves (.clearInterlock q) 0x33 q s .state)
      ∧ (s.sense.active = false → leaves (.clearInterlock q) 0x33 q s .ok)

/-- An active interlock ends only where a request clears it while the match is false, by a reset with scope NODE, or by
power-on or release of RESET_N. -/
def Obligations.InterlockEndsOnlyWhereItMay : Prop :=
  ∀ (s t : State) (c : Instr), exec c s = .next t → s.sense.active = true → t.sense.active = false →
    (∃ sns, c = .powerOn sns ∨ c = .resetNRelease sns)
      ∨ s.agent.resetScope = some .node
      ∨ s.sense.matchState = false ∧ s.link.state = .locked
        ∧ ((∃ q, c = .clearInterlock q)
          ∨ ∃ (b : Byte) (q : Req), s.link.cell ++ [b] = requestBytes 0x33 q
              ∧ (c ∈ [Instr.dataByteArrival b, .headerEighthByteArrival b, .cellLastByteArrival b, .slotArrival b]
                ∨ ∃ sns, c = .frameCheckSecondByteArrival b sns))

/-! ## Events, flags, counters and reset -/

/-- FETCH_EVENT removes the oldest record and answers with it and the number that remains, or EMPTY; READ_FLAGS,
CLEAR_FLAGS and SET_REPORT_MASK read and write the flags and the mask. That the EMPTY reply carries Object as received
is the model's reading (log 13). -/
def Obligations.EventsAndFlagsAreFetched : Prop :=
  ∀ (q : Req) (s : State), s.addressed q →
    (s.agent.queue = [] →
        exec (.fetchEvent q) s = .next (s.writeReply 0x40 q ⟨.empty, q.object, 0, ⟨0, 0, 0, 0, 0, 0⟩, 0⟩))
      ∧ (∀ r rest, s.agent.queue = r :: rest → ∃ a : Args,
        exec (.fetchEvent q) s
            = .next (State.writeReply { s with agent := { s.agent with queue := rest } } 0x40 q
                ⟨.ok, BitVec.ofNat 8 r.kind.code, BitVec.ofNat 16 rest.length, a, 0⟩)
          ∧ a.a1 = r.subject.byte ∧ wordAt a.a2 a.a3 = r.stamp ∧ wordAt a.a4 a.a5 = r.detail ∧ a.a6 = 0)
      ∧ (∃ a : Args,
        let cleared := s.agent.flags &&& ~~~(wordAt q.args.a1 q.args.a2).setWidth 14
        exec (.readFlags q) s = .next (s.writeReply 0x41 q ⟨.ok, q.object, q.index, a, 0⟩)
          ∧ exec (.clearFlags q) s
            = .next (State.writeReply { s with agent := { s.agent with flags := cleared } } 0x42 q
                ⟨.ok, q.object, q.index, a, 0⟩)
          ∧ (wordAt a.a1 a.a2).setWidth 14 = s.agent.flags ∧ (wordAt a.a3 a.a4).setWidth 12 = s.agent.mask
          ∧ a.a5 = 0 ∧ a.a6 = 0)
      ∧ exec (.setReportMask q) s
        = .next (State.writeReply
            { s with agent := { s.agent with mask := (wordAt q.args.a1 q.args.a2).setWidth 12 } } 0x43 q
            (answer q .ok))

/-- READ_COUNTERS returns a group and, with the clear option, sets its counters to 0 but never the frame clock; a link
counter rises by 1 and stops at 65535. RESET_NODE makes its scope pending and changes nothing else yet. -/
def Obligations.CountersAndPendingResets : Prop :=
  (∀ counter : BitVec 16, (countUp counter).toNat = min (counter.toNat + 1) 65535)
    ∧ ∀ (q : Req) (s : State), s.addressed q →
      let v := q.args.a1.toNat
      let l := s.link
      let reads (after : LinkFramer) (index : BitVec 16) (a : Args) : Prop :=
        exec (.readCounters q) s
          = .next (State.writeReply { s with link := after } 0x44 q ⟨.ok, q.object, index, a, 0⟩)
      let pends (i : Instr) (object : Byte) (scope : Scope) : Prop :=
        exec i s
          = .next (State.writeReply { s with agent := { s.agent with resetScope := some scope } } 0x50
              { q with object := object } (answer { q with object := object } .ok))
      (2 ≤ q.object.toNat ∨ 2 ≤ v → exec (.readCounters q) s = .next (s.writeReply 0x44 q (answer q .range)))
        ∧ (q.object = 0 → v ≤ 1 → ∃ a,
          reads (if v = 1 then { l with headerErrors := 0, frameCheckErrors := 0, cellCheckErrors := 0,
                                        truncatedFrames := 0 } else l) l.headerErrors a
            ∧ wordAt a.a1 a.a2 = l.frameCheckErrors ∧ wordAt a.a3 a.a4 = l.cellCheckErrors
            ∧ wordAt a.a5 a.a6 = l.truncatedFrames)
        ∧ (q.object = 1 → v ≤ 1 → ∃ a,
          reads (if v = 1 then { l with indexSlips := 0 } else l) l.indexSlips a
            ∧ (wordAt a.a1 a.a2).toNat * 65536 + (wordAt a.a3 a.a4).toNat = l.frameClock.toNat
            ∧ a.a5 = 0 ∧ a.a6 = 0)
        ∧ pends (.resetNodeOutputs q) 0 .outputs ∧ pends (.resetNodeTables q) 1 .tables
        ∧ pends (.resetNodeEvents q) 2 .events ∧ pends (.resetNodeScopeNode q) 3 .node
end

