-- ==== Sys2Proof/Laws/State.lean ====
section
/-! SUPPORT. What each field holds after each named update: one lemma per field and update. -/

namespace Sys2Proof.Machine

/-! ## An event raised -/

@[simp] theorem State.link_raise (s : State) (e : Event) : (s.raise e).link = s.link := rfl

@[simp] theorem State.map_raise (s : State) (e : Event) : (s.raise e).map = s.map := rfl

@[simp] theorem State.slot_raise (s : State) (e : Event) : (s.raise e).slot = s.slot := rfl

@[simp] theorem State.time_raise (s : State) (e : Event) : (s.raise e).time = s.time := rfl

@[simp] theorem State.level_raise (s : State) (e : Event) : (s.raise e).level = s.level := rfl

@[simp] theorem State.generators_raise (s : State) (e : Event) : (s.raise e).generators = s.generators := rfl

@[simp] theorem State.sense_raise (s : State) (e : Event) : (s.raise e).sense = s.sense := rfl

@[simp] theorem State.agent_raise (s : State) (e : Event) :
    (s.raise e).agent = s.agent.take e (s.link.frameClock.setWidth 16) := rfl

@[simp] theorem State.choices_raise (s : State) (e : Event) : (s.raise e).choices = s.choices := rfl

@[simp] theorem State.pending_raise (s : State) (e : Event) : (s.raise e).pending = s.pending := rfl

/-! ## The BAD_BROADCAST flag set -/

@[simp] theorem State.link_setBadBroadcast (s : State) : (s.setBadBroadcast).link = s.link := rfl

@[simp] theorem State.map_setBadBroadcast (s : State) : (s.setBadBroadcast).map = s.map := rfl

@[simp] theorem State.slot_setBadBroadcast (s : State) : (s.setBadBroadcast).slot = s.slot := rfl

@[simp] theorem State.time_setBadBroadcast (s : State) : (s.setBadBroadcast).time = s.time := rfl

@[simp] theorem State.level_setBadBroadcast (s : State) : (s.setBadBroadcast).level = s.level := rfl

@[simp] theorem State.generators_setBadBroadcast (s : State) :
    (s.setBadBroadcast).generators = s.generators := rfl

@[simp] theorem State.sense_setBadBroadcast (s : State) : (s.setBadBroadcast).sense = s.sense := rfl

@[simp] theorem State.agent_setBadBroadcast (s : State) :
    (s.setBadBroadcast).agent = { s.agent with flags := s.agent.flags ||| badBroadcastFlag } := rfl

@[simp] theorem State.choices_setBadBroadcast (s : State) : (s.setBadBroadcast).choices = s.choices := rfl

@[simp] theorem State.pending_setBadBroadcast (s : State) : (s.setBadBroadcast).pending = s.pending := rfl

/-! ## The sense lines' levels -/

@[simp] theorem State.link_setPins (s : State) (sns : Byte) : (s.setPins sns).link = s.link := rfl

@[simp] theorem State.map_setPins (s : State) (sns : Byte) : (s.setPins sns).map = s.map := rfl

@[simp] theorem State.slot_setPins (s : State) (sns : Byte) : (s.setPins sns).slot = s.slot := rfl

@[simp] theorem State.time_setPins (s : State) (sns : Byte) : (s.setPins sns).time = s.time := rfl

@[simp] theorem State.level_setPins (s : State) (sns : Byte) : (s.setPins sns).level = s.level := rfl

@[simp] theorem State.generators_setPins (s : State) (sns : Byte) :
    (s.setPins sns).generators = s.generators := rfl

@[simp] theorem State.sense_setPins (s : State) (sns : Byte) :
    (s.setPins sns).sense = { s.sense with pins := sns } := rfl

@[simp] theorem State.agent_setPins (s : State) (sns : Byte) : (s.setPins sns).agent = s.agent := rfl

@[simp] theorem State.choices_setPins (s : State) (sns : Byte) : (s.setPins sns).choices = s.choices := rfl

@[simp] theorem State.pending_setPins (s : State) (sns : Byte) : (s.setPins sns).pending = s.pending := rfl

/-! ## A reply written -/

@[simp] theorem State.link_writeReply (s : State) (code : Byte) (q : Req) (r : Reply) :
    (s.writeReply code q r).link = s.link.setCell (replyBytes code q r) := by simp only [State.writeReply]

@[simp] theorem State.map_writeReply (s : State) (code : Byte) (q : Req) (r : Reply) :
    (s.writeReply code q r).map = s.map := by simp only [State.writeReply]

@[simp] theorem State.slot_writeReply (s : State) (code : Byte) (q : Req) (r : Reply) :
    (s.writeReply code q r).slot = s.slot := by simp only [State.writeReply]

@[simp] theorem State.time_writeReply (s : State) (code : Byte) (q : Req) (r : Reply) :
    (s.writeReply code q r).time = s.time := by simp only [State.writeReply]

@[simp] theorem State.level_writeReply (s : State) (code : Byte) (q : Req) (r : Reply) :
    (s.writeReply code q r).level = s.level := by simp only [State.writeReply]

@[simp] theorem State.generators_writeReply (s : State) (code : Byte) (q : Req) (r : Reply) :
    (s.writeReply code q r).generators = s.generators := by simp only [State.writeReply]

@[simp] theorem State.sense_writeReply (s : State) (code : Byte) (q : Req) (r : Reply) :
    (s.writeReply code q r).sense = s.sense := by simp only [State.writeReply]

@[simp] theorem State.agent_writeReply (s : State) (code : Byte) (q : Req) (r : Reply) :
    (s.writeReply code q r).agent = s.agent := by simp only [State.writeReply]

@[simp] theorem State.choices_writeReply (s : State) (code : Byte) (q : Req) (r : Reply) :
    (s.writeReply code q r).choices = s.choices := by simp only [State.writeReply]

@[simp] theorem State.pending_writeReply (s : State) (code : Byte) (q : Req) (r : Reply) :
    (s.writeReply code q r).pending = s.pending := by simp only [State.writeReply]

/-! ## A bank stored -/

@[simp] theorem State.link_storeBank (s : State) (name : BankName) (bank : Bank) :
    (s.storeBank name bank).link = s.link := rfl

@[simp] theorem State.map_storeBank (s : State) (name : BankName) (bank : Bank) :
    (s.storeBank name bank).map = s.map.setBank name bank := rfl

@[simp] theorem State.slot_storeBank (s : State) (name : BankName) (bank : Bank) :
    (s.storeBank name bank).slot = s.slot := rfl

@[simp] theorem State.time_storeBank (s : State) (name : BankName) (bank : Bank) :
    (s.storeBank name bank).time = s.time := rfl

@[simp] theorem State.level_storeBank (s : State) (name : BankName) (bank : Bank) :
    (s.storeBank name bank).level = s.level := rfl

@[simp] theorem State.generators_storeBank (s : State) (name : BankName) (bank : Bank) :
    (s.storeBank name bank).generators = s.generators := rfl

@[simp] theorem State.sense_storeBank (s : State) (name : BankName) (bank : Bank) :
    (s.storeBank name bank).sense = s.sense := rfl

@[simp] theorem State.agent_storeBank (s : State) (name : BankName) (bank : Bank) :
    (s.storeBank name bank).agent = s.agent := rfl

@[simp] theorem State.choices_storeBank (s : State) (name : BankName) (bank : Bank) :
    (s.storeBank name bank).choices = s.choices := rfl

@[simp] theorem State.pending_storeBank (s : State) (name : BankName) (bank : Bank) :
    (s.storeBank name bank).pending = s.pending := rfl

/-! ## A channel record or a generator replaced -/

@[simp] theorem State.link_setChannel (s : State) (channel : Fin 16) (c : Channel) :
    (s.setChannel channel c).link = s.link := rfl

@[simp] theorem State.map_setChannel (s : State) (channel : Fin 16) (c : Channel) :
    (s.setChannel channel c).map = s.map := rfl

@[simp] theorem State.slot_setChannel (s : State) (channel : Fin 16) (c : Channel) :
    (s.setChannel channel c).slot = s.slot := rfl

@[simp] theorem State.time_setChannel (s : State) (channel : Fin 16) (c : Channel) :
    (s.setChannel channel c).time = s.time := rfl

@[simp] theorem State.level_setChannel (s : State) (channel : Fin 16) (c : Channel) :
    (s.setChannel channel c).level = { s.level with channels := s.level.channels.set channel c } := rfl

@[simp] theorem State.generators_setChannel (s : State) (channel : Fin 16) (c : Channel) :
    (s.setChannel channel c).generators = s.generators := rfl

@[simp] theorem State.sense_setChannel (s : State) (channel : Fin 16) (c : Channel) :
    (s.setChannel channel c).sense = s.sense := rfl

@[simp] theorem State.agent_setChannel (s : State) (channel : Fin 16) (c : Channel) :
    (s.setChannel channel c).agent = s.agent := rfl

@[simp] theorem State.choices_setChannel (s : State) (channel : Fin 16) (c : Channel) :
    (s.setChannel channel c).choices = s.choices := rfl

@[simp] theorem State.pending_setChannel (s : State) (channel : Fin 16) (c : Channel) :
    (s.setChannel channel c).pending = s.pending := rfl

@[simp] theorem State.link_setGenerator (s : State) (channel : Fin 16) (g : Generator) :
    (s.setGenerator channel g).link = s.link := rfl

@[simp] theorem State.map_setGenerator (s : State) (channel : Fin 16) (g : Generator) :
    (s.setGenerator channel g).map = s.map := rfl

@[simp] theorem State.slot_setGenerator (s : State) (channel : Fin 16) (g : Generator) :
    (s.setGenerator channel g).slot = s.slot := rfl

@[simp] theorem State.time_setGenerator (s : State) (channel : Fin 16) (g : Generator) :
    (s.setGenerator channel g).time = s.time := rfl

@[simp] theorem State.level_setGenerator (s : State) (channel : Fin 16) (g : Generator) :
    (s.setGenerator channel g).level = s.level := rfl

@[simp] theorem State.generators_setGenerator (s : State) (channel : Fin 16) (g : Generator) :
    (s.setGenerator channel g).generators = s.generators.set channel g := rfl

@[simp] theorem State.sense_setGenerator (s : State) (channel : Fin 16) (g : Generator) :
    (s.setGenerator channel g).sense = s.sense := rfl

@[simp] theorem State.agent_setGenerator (s : State) (channel : Fin 16) (g : Generator) :
    (s.setGenerator channel g).agent = s.agent := rfl

@[simp] theorem State.choices_setGenerator (s : State) (channel : Fin 16) (g : Generator) :
    (s.setGenerator channel g).choices = s.choices := rfl

@[simp] theorem State.pending_setGenerator (s : State) (channel : Fin 16) (g : Generator) :
    (s.setGenerator channel g).pending = s.pending := rfl

/-! ## Power-on -/

@[simp] theorem State.link_restart (s : State) (sns : Byte) :
    (s.restart sns).link = .powerOn := by simp only [State.restart, State.powerOn]

@[simp] theorem State.map_restart (s : State) (sns : Byte) :
    (s.restart sns).map = .powerOn := by simp only [State.restart, State.powerOn]

@[simp] theorem State.slot_restart (s : State) (sns : Byte) :
    (s.restart sns).slot = .powerOn := by simp only [State.restart, State.powerOn]

@[simp] theorem State.time_restart (s : State) (sns : Byte) :
    (s.restart sns).time = .powerOn := by simp only [State.restart, State.powerOn]

@[simp] theorem State.level_restart (s : State) (sns : Byte) :
    (s.restart sns).level = .powerOn := by simp only [State.restart, State.powerOn]

@[simp] theorem State.generators_restart (s : State) (sns : Byte) :
    (s.restart sns).generators = Vector.replicate 16 .powerOn := by simp only [State.restart, State.powerOn]

@[simp] theorem State.sense_restart (s : State) (sns : Byte) :
    (s.restart sns).sense = .atReset sns := by simp only [State.restart, State.powerOn]

@[simp] theorem State.agent_restart (s : State) (sns : Byte) :
    (s.restart sns).agent = .powerOn := by simp only [State.restart, State.powerOn]

@[simp] theorem State.choices_restart (s : State) (sns : Byte) :
    (s.restart sns).choices = s.choices := by simp only [State.restart, State.powerOn]

@[simp] theorem State.pending_restart (s : State) (sns : Byte) :
    (s.restart sns).pending = s.pending := by simp only [State.restart, State.powerOn]

/-! ## The stages of a step tick that raise nothing -/

@[simp] theorem State.link_stepInputs (s : State) : (s.stepInputs).link = s.link := rfl

@[simp] theorem State.map_stepInputs (s : State) : (s.stepInputs).map = s.map := rfl

@[simp] theorem State.slot_stepInputs (s : State) : (s.stepInputs).slot = s.slot := rfl

@[simp] theorem State.time_stepInputs (s : State) : (s.stepInputs).time = s.time := rfl

@[simp] theorem State.level_stepInputs (s : State) :
    (s.stepInputs).level = { s.level with frozen := s.level.freezeRequest } := rfl

@[simp] theorem State.generators_stepInputs (s : State) : (s.stepInputs).generators = s.generators := rfl

@[simp] theorem State.sense_stepInputs (s : State) : (s.stepInputs).sense = s.sense := rfl

@[simp] theorem State.agent_stepInputs (s : State) : (s.stepInputs).agent = s.agent := rfl

@[simp] theorem State.choices_stepInputs (s : State) : (s.stepInputs).choices = s.choices := rfl

@[simp] theorem State.pending_stepInputs (s : State) : (s.stepInputs).pending = s.pending := rfl

@[simp] theorem State.link_stepFade (s : State) : (s.stepFade).link = s.link := by simp only [State.stepFade]

@[simp] theorem State.map_stepFade (s : State) : (s.stepFade).map = s.map := by simp only [State.stepFade]

@[simp] theorem State.slot_stepFade (s : State) : (s.stepFade).slot = s.slot := by simp only [State.stepFade]

@[simp] theorem State.time_stepFade (s : State) : (s.stepFade).time = s.time := by simp only [State.stepFade]

@[simp] theorem State.level_stepFade (s : State) :
    (s.stepFade).level = { s.level with channels := Vector.ofFn fun i => s.level.channels[i].fade } := by simp only [State.stepFade]

@[simp] theorem State.generators_stepFade (s : State) :
    (s.stepFade).generators = s.generators := by simp only [State.stepFade]

@[simp] theorem State.sense_stepFade (s : State) :
    (s.stepFade).sense = s.sense := by simp only [State.stepFade]

@[simp] theorem State.agent_stepFade (s : State) :
    (s.stepFade).agent = s.agent := by simp only [State.stepFade]

@[simp] theorem State.choices_stepFade (s : State) :
    (s.stepFade).choices = s.choices := by simp only [State.stepFade]

@[simp] theorem State.pending_stepFade (s : State) :
    (s.stepFade).pending = s.pending := by simp only [State.stepFade]

@[simp] theorem State.link_stepGenerators (s : State) :
    (s.stepGenerators).link = s.link := by simp only [State.stepGenerators]

@[simp] theorem State.map_stepGenerators (s : State) :
    (s.stepGenerators).map = s.map := by simp only [State.stepGenerators]

@[simp] theorem State.slot_stepGenerators (s : State) :
    (s.stepGenerators).slot = s.slot := by simp only [State.stepGenerators]

@[simp] theorem State.time_stepGenerators (s : State) :
    (s.stepGenerators).time = s.time := by simp only [State.stepGenerators]

@[simp] theorem State.level_stepGenerators (s : State) :
    (s.stepGenerators).level = s.level := by simp only [State.stepGenerators]

@[simp] theorem State.generators_stepGenerators (s : State) :
    (s.stepGenerators).generators = Vector.ofFn fun i => s.generators[i].step s.level.channels[i] := by simp only [State.stepGenerators]

@[simp] theorem State.sense_stepGenerators (s : State) :
    (s.stepGenerators).sense = s.sense := by simp only [State.stepGenerators]

@[simp] theorem State.agent_stepGenerators (s : State) :
    (s.stepGenerators).agent = s.agent := by simp only [State.stepGenerators]

@[simp] theorem State.choices_stepGenerators (s : State) :
    (s.stepGenerators).choices = s.choices := by simp only [State.stepGenerators]

@[simp] theorem State.pending_stepGenerators (s : State) :
    (s.stepGenerators).pending = s.pending := by simp only [State.stepGenerators]

/-! ## The delay line -/

@[simp] theorem LinkFramer.state_put (l : LinkFramer) (sym : Sym) : (l.put sym).state = l.state := rfl

@[simp] theorem LinkFramer.frame_put (l : LinkFramer) (sym : Sym) : (l.put sym).frame = l.frame := rfl

@[simp] theorem LinkFramer.header_put (l : LinkFramer) (sym : Sym) : (l.put sym).header = l.header := rfl

@[simp] theorem LinkFramer.cell_put (l : LinkFramer) (sym : Sym) : (l.put sym).cell = l.cell := rfl

@[simp] theorem LinkFramer.checkByte_put (l : LinkFramer) (sym : Sym) :
    (l.put sym).checkByte = l.checkByte := rfl

@[simp] theorem LinkFramer.receivedCheck_put (l : LinkFramer) (sym : Sym) :
    (l.put sym).receivedCheck = l.receivedCheck := rfl

@[simp] theorem LinkFramer.sentCheck_put (l : LinkFramer) (sym : Sym) :
    (l.put sym).sentCheck = l.sentCheck := rfl

@[simp] theorem LinkFramer.position_put (l : LinkFramer) (sym : Sym) : (l.put sym).position = l.position := rfl

@[simp] theorem LinkFramer.expected_put (l : LinkFramer) (sym : Sym) : (l.put sym).expected = l.expected := rfl

@[simp] theorem LinkFramer.badHeaders_put (l : LinkFramer) (sym : Sym) :
    (l.put sym).badHeaders = l.badHeaders := rfl

@[simp] theorem LinkFramer.heldLast_put (l : LinkFramer) (sym : Sym) : (l.put sym).heldLast = l.heldLast := rfl

@[simp] theorem LinkFramer.heldBlackout_put (l : LinkFramer) (sym : Sym) :
    (l.put sym).heldBlackout = l.heldBlackout := rfl

@[simp] theorem LinkFramer.timeout_put (l : LinkFramer) (sym : Sym) : (l.put sym).timeout = l.timeout := rfl

@[simp] theorem LinkFramer.reference_put (l : LinkFramer) (sym : Sym) :
    (l.put sym).reference = l.reference := rfl

@[simp] theorem LinkFramer.staleCount_put (l : LinkFramer) (sym : Sym) :
    (l.put sym).staleCount = l.staleCount := rfl

@[simp] theorem LinkFramer.staleStage_put (l : LinkFramer) (sym : Sym) :
    (l.put sym).staleStage = l.staleStage := rfl

@[simp] theorem LinkFramer.staleCause_put (l : LinkFramer) (sym : Sym) :
    (l.put sym).staleCause = l.staleCause := rfl

@[simp] theorem LinkFramer.frameClock_put (l : LinkFramer) (sym : Sym) :
    (l.put sym).frameClock = l.frameClock := rfl

@[simp] theorem LinkFramer.headerErrors_put (l : LinkFramer) (sym : Sym) :
    (l.put sym).headerErrors = l.headerErrors := rfl

@[simp] theorem LinkFramer.frameCheckErrors_put (l : LinkFramer) (sym : Sym) :
    (l.put sym).frameCheckErrors = l.frameCheckErrors := rfl

@[simp] theorem LinkFramer.cellCheckErrors_put (l : LinkFramer) (sym : Sym) :
    (l.put sym).cellCheckErrors = l.cellCheckErrors := rfl

@[simp] theorem LinkFramer.truncatedFrames_put (l : LinkFramer) (sym : Sym) :
    (l.put sym).truncatedFrames = l.truncatedFrames := rfl

@[simp] theorem LinkFramer.indexSlips_put (l : LinkFramer) (sym : Sym) :
    (l.put sym).indexSlips = l.indexSlips := rfl

@[simp] theorem LinkFramer.delay_put (l : LinkFramer) (sym : Sym) : (l.put sym).delay = l.delay ++ [sym] := rfl

@[simp] theorem LinkFramer.abortNext_put (l : LinkFramer) (sym : Sym) :
    (l.put sym).abortNext = l.abortNext := rfl

@[simp] theorem LinkFramer.linkOut_put (l : LinkFramer) (sym : Sym) : (l.put sym).linkOut = l.linkOut := rfl

@[simp] theorem LinkFramer.state_substitute (l : LinkFramer) (bytes : List Byte) :
    (l.substitute bytes).state = l.state := rfl

@[simp] theorem LinkFramer.frame_substitute (l : LinkFramer) (bytes : List Byte) :
    (l.substitute bytes).frame = l.frame := rfl

@[simp] theorem LinkFramer.header_substitute (l : LinkFramer) (bytes : List Byte) :
    (l.substitute bytes).header = l.header := rfl

@[simp] theorem LinkFramer.cell_substitute (l : LinkFramer) (bytes : List Byte) :
    (l.substitute bytes).cell = l.cell := rfl

@[simp] theorem LinkFramer.checkByte_substitute (l : LinkFramer) (bytes : List Byte) :
    (l.substitute bytes).checkByte = l.checkByte := rfl

@[simp] theorem LinkFramer.receivedCheck_substitute (l : LinkFramer) (bytes : List Byte) :
    (l.substitute bytes).receivedCheck = l.receivedCheck := rfl

@[simp] theorem LinkFramer.sentCheck_substitute (l : LinkFramer) (bytes : List Byte) :
    (l.substitute bytes).sentCheck = l.sentCheck := rfl

@[simp] theorem LinkFramer.position_substitute (l : LinkFramer) (bytes : List Byte) :
    (l.substitute bytes).position = l.position := rfl

@[simp] theorem LinkFramer.expected_substitute (l : LinkFramer) (bytes : List Byte) :
    (l.substitute bytes).expected = l.expected := rfl

@[simp] theorem LinkFramer.badHeaders_substitute (l : LinkFramer) (bytes : List Byte) :
    (l.substitute bytes).badHeaders = l.badHeaders := rfl

@[simp] theorem LinkFramer.heldLast_substitute (l : LinkFramer) (bytes : List Byte) :
    (l.substitute bytes).heldLast = l.heldLast := rfl

@[simp] theorem LinkFramer.heldBlackout_substitute (l : LinkFramer) (bytes : List Byte) :
    (l.substitute bytes).heldBlackout = l.heldBlackout := rfl

@[simp] theorem LinkFramer.timeout_substitute (l : LinkFramer) (bytes : List Byte) :
    (l.substitute bytes).timeout = l.timeout := rfl

@[simp] theorem LinkFramer.reference_substitute (l : LinkFramer) (bytes : List Byte) :
    (l.substitute bytes).reference = l.reference := rfl

@[simp] theorem LinkFramer.staleCount_substitute (l : LinkFramer) (bytes : List Byte) :
    (l.substitute bytes).staleCount = l.staleCount := rfl

@[simp] theorem LinkFramer.staleStage_substitute (l : LinkFramer) (bytes : List Byte) :
    (l.substitute bytes).staleStage = l.staleStage := rfl

@[simp] theorem LinkFramer.staleCause_substitute (l : LinkFramer) (bytes : List Byte) :
    (l.substitute bytes).staleCause = l.staleCause := rfl

@[simp] theorem LinkFramer.frameClock_substitute (l : LinkFramer) (bytes : List Byte) :
    (l.substitute bytes).frameClock = l.frameClock := rfl

@[simp] theorem LinkFramer.headerErrors_substitute (l : LinkFramer) (bytes : List Byte) :
    (l.substitute bytes).headerErrors = l.headerErrors := rfl

@[simp] theorem LinkFramer.frameCheckErrors_substitute (l : LinkFramer) (bytes : List Byte) :
    (l.substitute bytes).frameCheckErrors = l.frameCheckErrors := rfl

@[simp] theorem LinkFramer.cellCheckErrors_substitute (l : LinkFramer) (bytes : List Byte) :
    (l.substitute bytes).cellCheckErrors = l.cellCheckErrors := rfl

@[simp] theorem LinkFramer.truncatedFrames_substitute (l : LinkFramer) (bytes : List Byte) :
    (l.substitute bytes).truncatedFrames = l.truncatedFrames := rfl

@[simp] theorem LinkFramer.indexSlips_substitute (l : LinkFramer) (bytes : List Byte) :
    (l.substitute bytes).indexSlips = l.indexSlips := rfl

@[simp] theorem LinkFramer.delay_substitute (l : LinkFramer) (bytes : List Byte) :
    (l.substitute bytes).delay = replaceLast l.delay (bytes.map .data) := rfl

@[simp] theorem LinkFramer.abortNext_substitute (l : LinkFramer) (bytes : List Byte) :
    (l.substitute bytes).abortNext = l.abortNext := rfl

@[simp] theorem LinkFramer.linkOut_substitute (l : LinkFramer) (bytes : List Byte) :
    (l.substitute bytes).linkOut = l.linkOut := rfl

@[simp] theorem LinkFramer.state_setCell (l : LinkFramer) (bytes : List Byte) :
    (l.setCell bytes).state = l.state := by simp only [LinkFramer.setCell, LinkFramer.substitute]

@[simp] theorem LinkFramer.frame_setCell (l : LinkFramer) (bytes : List Byte) :
    (l.setCell bytes).frame = l.frame := by simp only [LinkFramer.setCell, LinkFramer.substitute]

@[simp] theorem LinkFramer.header_setCell (l : LinkFramer) (bytes : List Byte) :
    (l.setCell bytes).header = l.header := by simp only [LinkFramer.setCell, LinkFramer.substitute]

@[simp] theorem LinkFramer.cell_setCell (l : LinkFramer) (bytes : List Byte) :
    (l.setCell bytes).cell = bytes := by simp only [LinkFramer.setCell, LinkFramer.substitute]

@[simp] theorem LinkFramer.checkByte_setCell (l : LinkFramer) (bytes : List Byte) :
    (l.setCell bytes).checkByte = l.checkByte := by simp only [LinkFramer.setCell, LinkFramer.substitute]

@[simp] theorem LinkFramer.receivedCheck_setCell (l : LinkFramer) (bytes : List Byte) :
    (l.setCell bytes).receivedCheck = l.receivedCheck := by simp only [LinkFramer.setCell, LinkFramer.substitute]

@[simp] theorem LinkFramer.sentCheck_setCell (l : LinkFramer) (bytes : List Byte) :
    (l.setCell bytes).sentCheck = crc16 bytes := by simp only [LinkFramer.setCell, LinkFramer.substitute]

@[simp] theorem LinkFramer.position_setCell (l : LinkFramer) (bytes : List Byte) :
    (l.setCell bytes).position = l.position := by simp only [LinkFramer.setCell, LinkFramer.substitute]

@[simp] theorem LinkFramer.expected_setCell (l : LinkFramer) (bytes : List Byte) :
    (l.setCell bytes).expected = l.expected := by simp only [LinkFramer.setCell, LinkFramer.substitute]

@[simp] theorem LinkFramer.badHeaders_setCell (l : LinkFramer) (bytes : List Byte) :
    (l.setCell bytes).badHeaders = l.badHeaders := by simp only [LinkFramer.setCell, LinkFramer.substitute]

@[simp] theorem LinkFramer.heldLast_setCell (l : LinkFramer) (bytes : List Byte) :
    (l.setCell bytes).heldLast = l.heldLast := by simp only [LinkFramer.setCell, LinkFramer.substitute]

@[simp] theorem LinkFramer.heldBlackout_setCell (l : LinkFramer) (bytes : List Byte) :
    (l.setCell bytes).heldBlackout = l.heldBlackout := by simp only [LinkFramer.setCell, LinkFramer.substitute]

@[simp] theorem LinkFramer.timeout_setCell (l : LinkFramer) (bytes : List Byte) :
    (l.setCell bytes).timeout = l.timeout := by simp only [LinkFramer.setCell, LinkFramer.substitute]

@[simp] theorem LinkFramer.reference_setCell (l : LinkFramer) (bytes : List Byte) :
    (l.setCell bytes).reference = l.reference := by simp only [LinkFramer.setCell, LinkFramer.substitute]

@[simp] theorem LinkFramer.staleCount_setCell (l : LinkFramer) (bytes : List Byte) :
    (l.setCell bytes).staleCount = l.staleCount := by simp only [LinkFramer.setCell, LinkFramer.substitute]

@[simp] theorem LinkFramer.staleStage_setCell (l : LinkFramer) (bytes : List Byte) :
    (l.setCell bytes).staleStage = l.staleStage := by simp only [LinkFramer.setCell, LinkFramer.substitute]

@[simp] theorem LinkFramer.staleCause_setCell (l : LinkFramer) (bytes : List Byte) :
    (l.setCell bytes).staleCause = l.staleCause := by simp only [LinkFramer.setCell, LinkFramer.substitute]

@[simp] theorem LinkFramer.frameClock_setCell (l : LinkFramer) (bytes : List Byte) :
    (l.setCell bytes).frameClock = l.frameClock := by simp only [LinkFramer.setCell, LinkFramer.substitute]

@[simp] theorem LinkFramer.headerErrors_setCell (l : LinkFramer) (bytes : List Byte) :
    (l.setCell bytes).headerErrors = l.headerErrors := by simp only [LinkFramer.setCell, LinkFramer.substitute]

@[simp] theorem LinkFramer.frameCheckErrors_setCell (l : LinkFramer) (bytes : List Byte) :
    (l.setCell bytes).frameCheckErrors = l.frameCheckErrors := by simp only [LinkFramer.setCell, LinkFramer.substitute]

@[simp] theorem LinkFramer.cellCheckErrors_setCell (l : LinkFramer) (bytes : List Byte) :
    (l.setCell bytes).cellCheckErrors = l.cellCheckErrors := by simp only [LinkFramer.setCell, LinkFramer.substitute]

@[simp] theorem LinkFramer.truncatedFrames_setCell (l : LinkFramer) (bytes : List Byte) :
    (l.setCell bytes).truncatedFrames = l.truncatedFrames := by simp only [LinkFramer.setCell, LinkFramer.substitute]

@[simp] theorem LinkFramer.indexSlips_setCell (l : LinkFramer) (bytes : List Byte) :
    (l.setCell bytes).indexSlips = l.indexSlips := by simp only [LinkFramer.setCell, LinkFramer.substitute]

@[simp] theorem LinkFramer.delay_setCell (l : LinkFramer) (bytes : List Byte) :
    (l.setCell bytes).delay = replaceLast l.delay (bytes.map .data) := by simp only [LinkFramer.setCell, LinkFramer.substitute]

@[simp] theorem LinkFramer.abortNext_setCell (l : LinkFramer) (bytes : List Byte) :
    (l.setCell bytes).abortNext = l.abortNext := by simp only [LinkFramer.setCell, LinkFramer.substitute]

@[simp] theorem LinkFramer.linkOut_setCell (l : LinkFramer) (bytes : List Byte) :
    (l.setCell bytes).linkOut = l.linkOut := by simp only [LinkFramer.setCell, LinkFramer.substitute]

/-! ## The frame in progress -/

@[simp] theorem LinkFramer.state_at (l : LinkFramer) (place slots : Nat) :
    (l.at place slots).state = l.state := rfl

@[simp] theorem LinkFramer.frame_at (l : LinkFramer) (place slots : Nat) :
    (l.at place slots).frame = .good place slots := rfl

@[simp] theorem LinkFramer.header_at (l : LinkFramer) (place slots : Nat) :
    (l.at place slots).header = l.header := rfl

@[simp] theorem LinkFramer.cell_at (l : LinkFramer) (place slots : Nat) :
    (l.at place slots).cell = l.cell := rfl

@[simp] theorem LinkFramer.checkByte_at (l : LinkFramer) (place slots : Nat) :
    (l.at place slots).checkByte = l.checkByte := rfl

@[simp] theorem LinkFramer.receivedCheck_at (l : LinkFramer) (place slots : Nat) :
    (l.at place slots).receivedCheck = l.receivedCheck := rfl

@[simp] theorem LinkFramer.sentCheck_at (l : LinkFramer) (place slots : Nat) :
    (l.at place slots).sentCheck = l.sentCheck := rfl

@[simp] theorem LinkFramer.position_at (l : LinkFramer) (place slots : Nat) :
    (l.at place slots).position = l.position := rfl

@[simp] theorem LinkFramer.expected_at (l : LinkFramer) (place slots : Nat) :
    (l.at place slots).expected = l.expected := rfl

@[simp] theorem LinkFramer.badHeaders_at (l : LinkFramer) (place slots : Nat) :
    (l.at place slots).badHeaders = l.badHeaders := rfl

@[simp] theorem LinkFramer.heldLast_at (l : LinkFramer) (place slots : Nat) :
    (l.at place slots).heldLast = l.heldLast := rfl

@[simp] theorem LinkFramer.heldBlackout_at (l : LinkFramer) (place slots : Nat) :
    (l.at place slots).heldBlackout = l.heldBlackout := rfl

@[simp] theorem LinkFramer.timeout_at (l : LinkFramer) (place slots : Nat) :
    (l.at place slots).timeout = l.timeout := rfl

@[simp] theorem LinkFramer.reference_at (l : LinkFramer) (place slots : Nat) :
    (l.at place slots).reference = l.reference := rfl

@[simp] theorem LinkFramer.staleCount_at (l : LinkFramer) (place slots : Nat) :
    (l.at place slots).staleCount = l.staleCount := rfl

@[simp] theorem LinkFramer.staleStage_at (l : LinkFramer) (place slots : Nat) :
    (l.at place slots).staleStage = l.staleStage := rfl

@[simp] theorem LinkFramer.staleCause_at (l : LinkFramer) (place slots : Nat) :
    (l.at place slots).staleCause = l.staleCause := rfl

@[simp] theorem LinkFramer.frameClock_at (l : LinkFramer) (place slots : Nat) :
    (l.at place slots).frameClock = l.frameClock := rfl

@[simp] theorem LinkFramer.headerErrors_at (l : LinkFramer) (place slots : Nat) :
    (l.at place slots).headerErrors = l.headerErrors := rfl

@[simp] theorem LinkFramer.frameCheckErrors_at (l : LinkFramer) (place slots : Nat) :
    (l.at place slots).frameCheckErrors = l.frameCheckErrors := rfl

@[simp] theorem LinkFramer.cellCheckErrors_at (l : LinkFramer) (place slots : Nat) :
    (l.at place slots).cellCheckErrors = l.cellCheckErrors := rfl

@[simp] theorem LinkFramer.truncatedFrames_at (l : LinkFramer) (place slots : Nat) :
    (l.at place slots).truncatedFrames = l.truncatedFrames := rfl

@[simp] theorem LinkFramer.indexSlips_at (l : LinkFramer) (place slots : Nat) :
    (l.at place slots).indexSlips = l.indexSlips := rfl

@[simp] theorem LinkFramer.delay_at (l : LinkFramer) (place slots : Nat) :
    (l.at place slots).delay = l.delay := rfl

@[simp] theorem LinkFramer.abortNext_at (l : LinkFramer) (place slots : Nat) :
    (l.at place slots).abortNext = l.abortNext := rfl

@[simp] theorem LinkFramer.linkOut_at (l : LinkFramer) (place slots : Nat) :
    (l.at place slots).linkOut = l.linkOut := rfl

/-! ## The heartbeat watch and the counters -/

@[simp] theorem LinkFramer.state_restartWatch (l : LinkFramer) : (l.restartWatch).state = l.state := rfl

@[simp] theorem LinkFramer.frame_restartWatch (l : LinkFramer) : (l.restartWatch).frame = l.frame := rfl

@[simp] theorem LinkFramer.header_restartWatch (l : LinkFramer) : (l.restartWatch).header = l.header := rfl

@[simp] theorem LinkFramer.cell_restartWatch (l : LinkFramer) : (l.restartWatch).cell = l.cell := rfl

@[simp] theorem LinkFramer.checkByte_restartWatch (l : LinkFramer) :
    (l.restartWatch).checkByte = l.checkByte := rfl

@[simp] theorem LinkFramer.receivedCheck_restartWatch (l : LinkFramer) :
    (l.restartWatch).receivedCheck = l.receivedCheck := rfl

@[simp] theorem LinkFramer.sentCheck_restartWatch (l : LinkFramer) :
    (l.restartWatch).sentCheck = l.sentCheck := rfl

@[simp] theorem LinkFramer.position_restartWatch (l : LinkFramer) :
    (l.restartWatch).position = l.position := rfl

@[simp] theorem LinkFramer.expected_restartWatch (l : LinkFramer) :
    (l.restartWatch).expected = l.expected := rfl

@[simp] theorem LinkFramer.badHeaders_restartWatch (l : LinkFramer) :
    (l.restartWatch).badHeaders = l.badHeaders := rfl

@[simp] theorem LinkFramer.heldLast_restartWatch (l : LinkFramer) :
    (l.restartWatch).heldLast = l.heldLast := rfl

@[simp] theorem LinkFramer.heldBlackout_restartWatch (l : LinkFramer) :
    (l.restartWatch).heldBlackout = l.heldBlackout := rfl

@[simp] theorem LinkFramer.timeout_restartWatch (l : LinkFramer) : (l.restartWatch).timeout = l.timeout := rfl

@[simp] theorem LinkFramer.reference_restartWatch (l : LinkFramer) : (l.restartWatch).reference = none := rfl

@[simp] theorem LinkFramer.staleCount_restartWatch (l : LinkFramer) : (l.restartWatch).staleCount = 0 := rfl

@[simp] theorem LinkFramer.staleStage_restartWatch (l : LinkFramer) : (l.restartWatch).staleStage = 0 := rfl

@[simp] theorem LinkFramer.staleCause_restartWatch (l : LinkFramer) :
    (l.restartWatch).staleCause = false := rfl

@[simp] theorem LinkFramer.frameClock_restartWatch (l : LinkFramer) :
    (l.restartWatch).frameClock = l.frameClock := rfl

@[simp] theorem LinkFramer.headerErrors_restartWatch (l : LinkFramer) :
    (l.restartWatch).headerErrors = l.headerErrors := rfl

@[simp] theorem LinkFramer.frameCheckErrors_restartWatch (l : LinkFramer) :
    (l.restartWatch).frameCheckErrors = l.frameCheckErrors := rfl

@[simp] theorem LinkFramer.cellCheckErrors_restartWatch (l : LinkFramer) :
    (l.restartWatch).cellCheckErrors = l.cellCheckErrors := rfl

@[simp] theorem LinkFramer.truncatedFrames_restartWatch (l : LinkFramer) :
    (l.restartWatch).truncatedFrames = l.truncatedFrames := rfl

@[simp] theorem LinkFramer.indexSlips_restartWatch (l : LinkFramer) :
    (l.restartWatch).indexSlips = l.indexSlips := rfl

@[simp] theorem LinkFramer.delay_restartWatch (l : LinkFramer) : (l.restartWatch).delay = l.delay := rfl

@[simp] theorem LinkFramer.abortNext_restartWatch (l : LinkFramer) :
    (l.restartWatch).abortNext = l.abortNext := rfl

@[simp] theorem LinkFramer.linkOut_restartWatch (l : LinkFramer) : (l.restartWatch).linkOut = l.linkOut := rfl

@[simp] theorem LinkFramer.state_clearCounters (l : LinkFramer) : (l.clearCounters).state = l.state := rfl

@[simp] theorem LinkFramer.frame_clearCounters (l : LinkFramer) : (l.clearCounters).frame = l.frame := rfl

@[simp] theorem LinkFramer.header_clearCounters (l : LinkFramer) : (l.clearCounters).header = l.header := rfl

@[simp] theorem LinkFramer.cell_clearCounters (l : LinkFramer) : (l.clearCounters).cell = l.cell := rfl

@[simp] theorem LinkFramer.checkByte_clearCounters (l : LinkFramer) :
    (l.clearCounters).checkByte = l.checkByte := rfl

@[simp] theorem LinkFramer.receivedCheck_clearCounters (l : LinkFramer) :
    (l.clearCounters).receivedCheck = l.receivedCheck := rfl

@[simp] theorem LinkFramer.sentCheck_clearCounters (l : LinkFramer) :
    (l.clearCounters).sentCheck = l.sentCheck := rfl

@[simp] theorem LinkFramer.position_clearCounters (l : LinkFramer) :
    (l.clearCounters).position = l.position := rfl

@[simp] theorem LinkFramer.expected_clearCounters (l : LinkFramer) :
    (l.clearCounters).expected = l.expected := rfl

@[simp] theorem LinkFramer.badHeaders_clearCounters (l : LinkFramer) :
    (l.clearCounters).badHeaders = l.badHeaders := rfl

@[simp] theorem LinkFramer.heldLast_clearCounters (l : LinkFramer) :
    (l.clearCounters).heldLast = l.heldLast := rfl

@[simp] theorem LinkFramer.heldBlackout_clearCounters (l : LinkFramer) :
    (l.clearCounters).heldBlackout = l.heldBlackout := rfl

@[simp] theorem LinkFramer.timeout_clearCounters (l : LinkFramer) :
    (l.clearCounters).timeout = l.timeout := rfl

@[simp] theorem LinkFramer.reference_clearCounters (l : LinkFramer) :
    (l.clearCounters).reference = l.reference := rfl

@[simp] theorem LinkFramer.staleCount_clearCounters (l : LinkFramer) :
    (l.clearCounters).staleCount = l.staleCount := rfl

@[simp] theorem LinkFramer.staleStage_clearCounters (l : LinkFramer) :
    (l.clearCounters).staleStage = l.staleStage := rfl

@[simp] theorem LinkFramer.staleCause_clearCounters (l : LinkFramer) :
    (l.clearCounters).staleCause = l.staleCause := rfl

@[simp] theorem LinkFramer.frameClock_clearCounters (l : LinkFramer) :
    (l.clearCounters).frameClock = l.frameClock := rfl

@[simp] theorem LinkFramer.headerErrors_clearCounters (l : LinkFramer) :
    (l.clearCounters).headerErrors = 0 := rfl

@[simp] theorem LinkFramer.frameCheckErrors_clearCounters (l : LinkFramer) :
    (l.clearCounters).frameCheckErrors = 0 := rfl

@[simp] theorem LinkFramer.cellCheckErrors_clearCounters (l : LinkFramer) :
    (l.clearCounters).cellCheckErrors = 0 := rfl

@[simp] theorem LinkFramer.truncatedFrames_clearCounters (l : LinkFramer) :
    (l.clearCounters).truncatedFrames = 0 := rfl

@[simp] theorem LinkFramer.indexSlips_clearCounters (l : LinkFramer) : (l.clearCounters).indexSlips = 0 := rfl

@[simp] theorem LinkFramer.delay_clearCounters (l : LinkFramer) : (l.clearCounters).delay = l.delay := rfl

@[simp] theorem LinkFramer.abortNext_clearCounters (l : LinkFramer) :
    (l.clearCounters).abortNext = l.abortNext := rfl

@[simp] theorem LinkFramer.linkOut_clearCounters (l : LinkFramer) :
    (l.clearCounters).linkOut = l.linkOut := rfl

@[simp] theorem LinkFramer.state_countTimeout (l : LinkFramer) : (l.countTimeout).state = l.state := rfl

@[simp] theorem LinkFramer.frame_countTimeout (l : LinkFramer) : (l.countTimeout).frame = l.frame := rfl

@[simp] theorem LinkFramer.header_countTimeout (l : LinkFramer) : (l.countTimeout).header = l.header := rfl

@[simp] theorem LinkFramer.cell_countTimeout (l : LinkFramer) : (l.countTimeout).cell = l.cell := rfl

@[simp] theorem LinkFramer.checkByte_countTimeout (l : LinkFramer) :
    (l.countTimeout).checkByte = l.checkByte := rfl

@[simp] theorem LinkFramer.receivedCheck_countTimeout (l : LinkFramer) :
    (l.countTimeout).receivedCheck = l.receivedCheck := rfl

@[simp] theorem LinkFramer.sentCheck_countTimeout (l : LinkFramer) :
    (l.countTimeout).sentCheck = l.sentCheck := rfl

@[simp] theorem LinkFramer.position_countTimeout (l : LinkFramer) :
    (l.countTimeout).position = l.position := rfl

@[simp] theorem LinkFramer.expected_countTimeout (l : LinkFramer) :
    (l.countTimeout).expected = l.expected := rfl

@[simp] theorem LinkFramer.badHeaders_countTimeout (l : LinkFramer) :
    (l.countTimeout).badHeaders = l.badHeaders := rfl

@[simp] theorem LinkFramer.heldLast_countTimeout (l : LinkFramer) :
    (l.countTimeout).heldLast = l.heldLast := rfl

@[simp] theorem LinkFramer.heldBlackout_countTimeout (l : LinkFramer) :
    (l.countTimeout).heldBlackout = l.heldBlackout := rfl

@[simp] theorem LinkFramer.timeout_countTimeout (l : LinkFramer) :
    (l.countTimeout).timeout = l.timeout.map (· - 1) := rfl

@[simp] theorem LinkFramer.reference_countTimeout (l : LinkFramer) :
    (l.countTimeout).reference = l.reference := rfl

@[simp] theorem LinkFramer.staleCount_countTimeout (l : LinkFramer) :
    (l.countTimeout).staleCount = l.staleCount := rfl

@[simp] theorem LinkFramer.staleStage_countTimeout (l : LinkFramer) :
    (l.countTimeout).staleStage = l.staleStage := rfl

@[simp] theorem LinkFramer.staleCause_countTimeout (l : LinkFramer) :
    (l.countTimeout).staleCause = l.staleCause := rfl

@[simp] theorem LinkFramer.frameClock_countTimeout (l : LinkFramer) :
    (l.countTimeout).frameClock = l.frameClock := rfl

@[simp] theorem LinkFramer.headerErrors_countTimeout (l : LinkFramer) :
    (l.countTimeout).headerErrors = l.headerErrors := rfl

@[simp] theorem LinkFramer.frameCheckErrors_countTimeout (l : LinkFramer) :
    (l.countTimeout).frameCheckErrors = l.frameCheckErrors := rfl

@[simp] theorem LinkFramer.cellCheckErrors_countTimeout (l : LinkFramer) :
    (l.countTimeout).cellCheckErrors = l.cellCheckErrors := rfl

@[simp] theorem LinkFramer.truncatedFrames_countTimeout (l : LinkFramer) :
    (l.countTimeout).truncatedFrames = l.truncatedFrames := rfl

@[simp] theorem LinkFramer.indexSlips_countTimeout (l : LinkFramer) :
    (l.countTimeout).indexSlips = l.indexSlips := rfl

@[simp] theorem LinkFramer.delay_countTimeout (l : LinkFramer) : (l.countTimeout).delay = l.delay := rfl

@[simp] theorem LinkFramer.abortNext_countTimeout (l : LinkFramer) :
    (l.countTimeout).abortNext = l.abortNext := rfl

@[simp] theorem LinkFramer.linkOut_countTimeout (l : LinkFramer) : (l.countTimeout).linkOut = l.linkOut := rfl

end Sys2Proof.Machine
end

