-- ==== Sys2Proof/Laws/Events.lean ====
section
/-! SUPPORT. What raising events can change: the event flags and the queue, nothing else. -/

namespace Sys2Proof.Machine

/-! ## One event at the Agent -/

/-- An event leaves the parameters alone. -/
@[simp] theorem Agent.params_take (a : Agent) (e : Event) (stamp : BitVec 16) :
    (a.take e stamp).params = a.params := by
  unfold Agent.take; dsimp only; split_ifs <;> rfl

/-- An event leaves the reset in progress alone. -/
@[simp] theorem Agent.resetScope_take (a : Agent) (e : Event) (stamp : BitVec 16) :
    (a.take e stamp).resetScope = a.resetScope := by
  unfold Agent.take; dsimp only; split_ifs <;> rfl

/-- An event leaves the report mask alone. -/
@[simp] theorem Agent.mask_take (a : Agent) (e : Event) (stamp : BitVec 16) :
    (a.take e stamp).mask = a.mask := by
  unfold Agent.take; dsimp only; split_ifs <;> rfl

/-- The queue never holds more than 32 records (R172). -/
theorem Agent.length_queue_take (a : Agent) (e : Event) (stamp : BitVec 16) (h : a.queue.length ≤ 32) :
    (a.take e stamp).queue.length ≤ 32 := by
  unfold Agent.take queueRoom
  dsimp only
  split_ifs <;> simp <;> omega

/-! ## Several events -/

/-- What events raised one after the other leave alone. -/
theorem State.raiseAll_frame (es : List Event) : ∀ s : State,
    (s.raiseAll es).link = s.link ∧ (s.raiseAll es).map = s.map ∧ (s.raiseAll es).slot = s.slot
      ∧ (s.raiseAll es).level = s.level ∧ (s.raiseAll es).generators = s.generators
      ∧ (s.raiseAll es).sense = s.sense ∧ (s.raiseAll es).time = s.time
      ∧ (s.raiseAll es).agent.params = s.agent.params ∧ (s.raiseAll es).agent.mask = s.agent.mask
      ∧ (s.raiseAll es).agent.resetScope = s.agent.resetScope ∧ (s.raiseAll es).choices = s.choices
      ∧ (s.raiseAll es).pending = s.pending := by
  induction es with
  | nil => intro s; simp [State.raiseAll]
  | cons e es ih => intro s; have := ih (s.raise e); simpa [State.raiseAll] using this

/-- What an event that is raised or not leaves alone. -/
theorem State.raise?_frame (s : State) (e : Option Event) :
    (s.raise? e).link = s.link ∧ (s.raise? e).map = s.map ∧ (s.raise? e).slot = s.slot
      ∧ (s.raise? e).level = s.level ∧ (s.raise? e).generators = s.generators
      ∧ (s.raise? e).sense = s.sense ∧ (s.raise? e).time = s.time
      ∧ (s.raise? e).agent.params = s.agent.params ∧ (s.raise? e).agent.mask = s.agent.mask
      ∧ (s.raise? e).agent.resetScope = s.agent.resetScope ∧ (s.raise? e).choices = s.choices
      ∧ (s.raise? e).pending = s.pending :=
  State.raiseAll_frame _ s

/-- Placing the owed TABLE_OP_DONE leaves nothing owed. -/
@[simp] theorem State.map_placeOwed (s : State) : s.placeOwed.map = { s.map with owed := none } :=
  (State.raise?_frame _ _).2.1

/-- Where nothing is owed, placing it changes nothing. -/
theorem State.placeOwed_of_none {s : State} (h : s.map.owed = none) : s.placeOwed = s := by
  have e : { s.map with owed := none } = s.map := by cases hm : s.map; rw [hm] at h; cases h; rfl
  show { s with map := { s.map with owed := none } }.raise? s.map.owed = s
  rw [h, e]; rfl

/-- What is owed is raised, and no longer owed. -/
theorem State.placeOwed_of_some {s : State} {e : Event} (h : s.map.owed = some e) :
    s.placeOwed = State.raise { s with map := { s.map with owed := none } } e := by
  show { s with map := { s.map with owed := none } }.raise? s.map.owed = _
  rw [h]; rfl

/-- What placing the owed TABLE_OP_DONE leaves alone. -/
theorem State.placeOwed_frame (s : State) :
    s.placeOwed.link = s.link ∧ s.placeOwed.slot = s.slot ∧ s.placeOwed.level = s.level
      ∧ s.placeOwed.generators = s.generators ∧ s.placeOwed.sense = s.sense ∧ s.placeOwed.time = s.time
      ∧ s.placeOwed.agent.params = s.agent.params ∧ s.placeOwed.agent.mask = s.agent.mask
      ∧ s.placeOwed.agent.resetScope = s.agent.resetScope ∧ s.placeOwed.choices = s.choices
      ∧ s.placeOwed.pending = s.pending := by
  obtain ⟨a, -, b⟩ := State.raise?_frame { s with map := { s.map with owed := none } } s.map.owed
  exact ⟨a, b⟩

/-- Events raised together carry one Stamp, in the order of the list. -/
theorem State.agent_raiseAll (es : List Event) : ∀ s : State,
    (s.raiseAll es).agent
      = es.foldl (fun agent e => agent.take e (s.link.frameClock.setWidth 16)) s.agent := by
  induction es with
  | nil => intro s; rfl
  | cons e es ih => intro s; exact ih (s.raise e)

/-- What a run of events leaves alone in the Agent. -/
theorem Agent.foldl_take_frame (es : List Event) (st : BitVec 16) : ∀ a : Agent,
    (es.foldl (fun agent e => Agent.take agent e st) a).params = a.params
      ∧ (es.foldl (fun agent e => Agent.take agent e st) a).mask = a.mask
      ∧ (es.foldl (fun agent e => Agent.take agent e st) a).resetScope = a.resetScope := by
  induction es with
  | nil => intro a; exact ⟨rfl, rfl, rfl⟩
  | cons e es ih => intro a; obtain ⟨x, y, z⟩ := ih (a.take e st); exact ⟨x.trans (Agent.params_take _ _ _), y.trans (Agent.mask_take _ _ _), z.trans (Agent.resetScope_take _ _ _)⟩

/-- Two blocks that raise an event each raise both, in an order that is a free value (log 1). -/
theorem State.raiseEither_eq (s : State) (a b : Option Event) : ∃ es : List Event,
    (s.raiseEither a b) = { (s.raiseAll es) with choices := (s.raiseEither a b).choices }
      ∧ (∀ e, e ∈ es ↔ a = some e ∨ b = some e) ∧ es.length ≤ 2 := by
  rcases a with _ | e <;> rcases b with _ | f
  · exact ⟨[], rfl, by simp, by simp⟩
  · exact ⟨[f], rfl, by simp [eq_comm], by simp⟩
  · exact ⟨[e], rfl, by simp [eq_comm], by simp⟩
  · by_cases h : Config.firstRaisedFirst s.choices = true
    · refine ⟨[e, f], ?_, by simp [eq_comm], by simp⟩
      simp only [State.raiseEither, h]; rfl
    · refine ⟨[f, e], ?_, by simp [eq_comm, or_comm], by simp⟩
      simp only [State.raiseEither, h]; rfl

end Sys2Proof.Machine
end

