-- ==== Sys2Proof/Laws/Blocks.lean ====
section
/-! SUPPORT. The staging buffers, banks, the delay line and a node reset. -/

namespace Sys2Proof.Machine

/-! ## Staging buffers and the delay line -/

/-- The end of a frame that hands nothing on (R73). -/
theorem SlotEngine.endBad_eq (e : SlotEngine) : e.endBad = e.afterBadEnd := by
  unfold SlotEngine.endBad SlotEngine.afterBadEnd Buffer.dropFilling Buffer.freed; rfl

/-- Both buffers freed (R77). -/
theorem SlotEngine.freeBoth_eq (e : SlotEngine) : e.freeBoth = e.bothFree := rfl

/-- The end of a frame with a correct check (R72). -/
theorem SlotEngine.endGood_eq (e : SlotEngine) : e.endGood = e.afterGoodEnd := by
  unfold SlotEngine.endGood SlotEngine.afterGoodEnd Buffer.dropPending Buffer.freed
  split_ifs with h1 h2 <;> simp_all

/-- A step tick frees the PENDING buffer (R74). -/
theorem SlotEngine.takePending_eq (e : SlotEngine) : e.takePending =
    { e with x := if e.x.state = .pending then { e.x with state := .free } else e.x,
             y := if e.y.state = .pending then { e.y with state := .free } else e.y } := rfl

/-- A substitution keeps the length of the delay line. -/
theorem replaceLast_length (l n : List Sym) : (replaceLast l n).length = l.length := by
  unfold replaceLast; simp; omega

/-- A regenerated header takes the place of the eight symbols received (R15). -/
theorem replaceLast_eight (sent seven : List Sym) (x : Sym) (bytes : List Byte) (h7 : seven.length = 7)
    (h8 : bytes.length = 8) :
    replaceLast (sent ++ seven ++ [x]) (bytes.map .data) = sent ++ bytes.map .data := by
  unfold replaceLast
  have h1 : (sent ++ seven ++ [x]).length - (bytes.map Sym.data).length = sent.length := by simp [h7, h8]
  have h2 : (bytes.map Sym.data).length - (sent ++ seven ++ [x]).length = 0 := by simp [h7, h8]
  rw [h1, h2]; simp

/-! ## Banks -/

/-- The other bank of the other bank. -/
@[simp] theorem BankName.other_other (name : BankName) : name.other.other = name := by
  cases name <;> rfl

/-- The other bank differs. -/
theorem BankName.other_ne (name : BankName) : name.other ≠ name := by
  cases name <;> simp [BankName.other]

/-- A bank that differs is the other one. -/
theorem BankName.eq_other_of_ne {name old : BankName} (h : name ≠ old) : name = old.other := by
  cases name <;> cases old <;> simp_all [BankName.other]

/-- A bank after one is written. -/
theorem MapStore.bank_setBank (m : MapStore) (n k : BankName) (b : Bank) :
    (m.setBank n b).bank k = if k = n then b else m.bank k := by
  cases n <;> cases k <;> rfl

/-- A bank written leaves the designation alone. -/
@[simp] theorem MapStore.active_setBank (m : MapStore) (n : BankName) (b : Bank) :
    (m.setBank n b).active = m.active := by
  cases n <;> rfl

/-- A bank written leaves the unit alone. -/
@[simp] theorem MapStore.op_setBank (m : MapStore) (n : BankName) (b : Bank) : (m.setBank n b).op = m.op := by
  cases n <;> rfl

/-- A bank written leaves what is still to be placed alone. -/
@[simp] theorem MapStore.owed_setBank (m : MapStore) (n : BankName) (b : Bank) :
    (m.setBank n b).owed = m.owed := by
  cases n <;> rfl

/-! ## Node reset -/

/-- A reset is each block's part of it (R166), and events at the Agent besides. -/
theorem State.applyReset_blocks (s : State) (scope : Scope) :
    (s.applyReset scope).link = s.link.nodeReset scope ∧ (s.applyReset scope).map = s.map.nodeReset scope
      ∧ (s.applyReset scope).slot = s.slot.nodeReset scope
      ∧ (s.applyReset scope).level = s.level.nodeReset scope
      ∧ (s.applyReset scope).generators = generatorsReset s.generators scope
      ∧ (s.applyReset scope).sense = s.sense.nodeReset scope ∧ (s.applyReset scope).time = s.time
      ∧ (s.applyReset scope).agent.params = (s.agent.nodeReset scope).params
      ∧ (s.applyReset scope).agent.mask = (s.agent.nodeReset scope).mask
      ∧ (s.applyReset scope).agent.resetScope = none ∧ (s.applyReset scope).choices = s.choices
      ∧ (s.applyReset scope).pending = s.pending :=
  State.raise?_frame _ _

/-- A reset with scope NODE alone restores the parameters (R167). -/
theorem State.params_applyReset (s : State) (scope : Scope) :
    (s.applyReset scope).agent.params = if scope = .node then .default else s.agent.params := by
  rw [(s.applyReset_blocks scope).2.2.2.2.2.2.2.1]; cases scope <;> rfl

/-- After a reset no reset is pending (R166). -/
@[simp] theorem State.resetScope_applyReset (s : State) (scope : Scope) :
    (s.applyReset scope).agent.resetScope = none := by
  exact (s.applyReset_blocks scope).2.2.2.2.2.2.2.2.2.1

end Sys2Proof.Machine
end

