-- ==== Sys2Proof/Laws/Bytes.lean ====
section
/-! SUPPORT. Bytes, words and codes as numbers. -/

namespace Sys2Proof.Machine

/-! ## Words of two bytes -/

/-- A word of two bytes is the high byte times 256 and the low one (R180). -/
theorem word16_eq_wordAt (a b : Byte) : word16 a b = wordAt a b := by
  apply BitVec.eq_of_toNat_eq
  simp only [word16, wordAt, BitVec.toNat_append, BitVec.toNat_ofNat]
  have := a.isLt; have := b.isLt
  rw [← Nat.shiftLeft_add_eq_or_of_lt (by omega), Nat.shiftLeft_eq]
  omega

/-- A word is read back from its two bytes. -/
theorem wordAt_hiByte_loByte (v : BitVec 16) : wordAt (hiByte v) (loByte v) = v := by
  have := v.isLt
  apply BitVec.eq_of_toNat_eq
  simp [wordAt, hiByte, loByte, Nat.shiftRight_eq_div_pow]
  omega

/-- The high byte of a word of two bytes. -/
theorem hiByte_word16 (a b : Byte) : hiByte (word16 a b) = a := by
  have := a.isLt
  have := b.isLt
  rw [word16_eq_wordAt]
  apply BitVec.eq_of_toNat_eq
  simp [wordAt, hiByte, Nat.shiftRight_eq_div_pow]
  omega

/-- The low byte of a word of two bytes. -/
theorem loByte_word16 (a b : Byte) : loByte (word16 a b) = b := by
  have := a.isLt
  have := b.isLt
  rw [word16_eq_wordAt]
  apply BitVec.eq_of_toNat_eq
  simp [wordAt, loByte]
  omega

/-- The high byte as a number. -/
theorem hiByte_eq (w : BitVec 16) : hiByte w = BitVec.ofNat 8 (w.toNat / 256) := by
  apply BitVec.eq_of_toNat_eq; simp [hiByte, Nat.shiftRight_eq_div_pow]

/-- The low byte as a number. -/
theorem loByte_eq (w : BitVec 16) : loByte w = BitVec.ofNat 8 (w.toNat % 256) := by
  apply BitVec.eq_of_toNat_eq; simp [loByte]

/-- Bit 7 of a byte is set from 128 up. -/
theorem getLsbD_seven (b : Byte) : b.getLsbD 7 = decide (128 ≤ b.toNat) := by
  have h : b.getLsbD 7 = b.msb := rfl
  rw [h, BitVec.msb_eq_decide]

/-- A yes/no byte as a number. -/
theorem flagByte_toNat (b : Bool) : (flagByte b).toNat = b.toNat := by
  cases b <;> rfl

/-- The Slot field of an entry, read as 15 bits (R185). -/
theorem slotField_toNat (a : Args) :
    (a.a1.extractLsb' 0 7 ++ a.a2).toNat = a.a1.toNat % 128 * 256 + a.a2.toNat := by
  have := a.a2.isLt
  simp only [BitVec.toNat_append, BitVec.extractLsb'_toNat]
  rw [← Nat.shiftLeft_add_eq_or_of_lt (by omega), Nat.shiftLeft_eq]; simp

/-- The Slot Count as a number (section 9.1). -/
theorem slotCountOf_eq (b6 b7 : Byte) : slotCountOf b6 b7 = b6.toNat % 4 * 256 + b7.toNat := by
  have := b7.isLt
  unfold slotCountOf
  simp only [BitVec.toNat_append, BitVec.extractLsb'_toNat]
  rw [← Nat.shiftLeft_add_eq_or_of_lt (by omega), Nat.shiftLeft_eq]; simp

/-- The Version field of header byte 1. -/
theorem versionField_iff (b1 : Byte) : b1.extractLsb' 4 4 = 1 ↔ b1.toNat / 16 = 1 := by
  constructor
  · intro h
    have := congrArg BitVec.toNat h
    have h2 := b1.isLt
    simp [Nat.shiftRight_eq_div_pow] at this; omega
  · intro h; apply BitVec.eq_of_toNat_eq; simp [Nat.shiftRight_eq_div_pow]; omega

/-! ## Codes -/

/-- An Index of 0 to 15 names its channel. -/
theorem channelOf_of_eq {x : BitVec 16} {c : Fin 16} (h : x.toNat = c.val) : channelOf x = some c := by
  unfold channelOf; rw [dif_pos (by omega)]; simp [h]

/-- An Index above 15 names no channel. -/
theorem channelOf_of_le {x : BitVec 16} (h : 16 ≤ x.toNat) : channelOf x = none := by
  unfold channelOf; rw [dif_neg (by omega)]

/-- An Index of 0 to 7 names its sense line. -/
theorem lineOf_of_eq {x : BitVec 16} {c : Fin 8} (h : x.toNat = c.val) : lineOf x = some c := by
  unfold lineOf; rw [dif_pos (by omega)]; simp [h]

/-- An Index above 7 names no sense line. -/
theorem lineOf_of_le {x : BitVec 16} (h : 8 ≤ x.toNat) : lineOf x = none := by
  unfold lineOf; rw [dif_neg (by omega)]

/-- A yes/no byte of 0 or 1. -/
theorem flagOf_of_le {b : Byte} (h : b.toNat ≤ 1) : flagOf b = some (decide (b.toNat = 1)) := by
  have : b = 0 ∨ b = 1 := by
    rcases Nat.le_one_iff_eq_zero_or_eq_one.1 h with h | h
    · left; exact BitVec.eq_of_toNat_eq h
    · right; exact BitVec.eq_of_toNat_eq h
  rcases this with rfl | rfl <;> rfl

/-- A yes/no byte above 1 is no option. -/
theorem flagOf_of_two_le {b : Byte} (h : 2 ≤ b.toNat) : flagOf b = none := by
  unfold flagOf; split_ifs <;> simp_all

/-- The low four bits of a byte. -/
theorem lowNibble_toNat (a : Byte) : (a.extractLsb' 0 4).toNat = a.toNat % 16 := by
  simp

/-- A mode code above 3 is no mode. -/
theorem modeOf_of_four_le {m : BitVec 4} (h : 4 ≤ m.toNat) : modeOf m = none := by
  unfold modeOf; split_ifs <;> simp_all

/-- A mode from its code. -/
theorem modeOf_of_code {m : BitVec 4} {mode : Mode} (h : mode.code.toNat = m.toNat) :
    modeOf m = some mode := by
  have : m = mode.code := (BitVec.eq_of_toNat_eq h).symm
  subst this; cases mode <;> rfl

/-- A Clock Divider from its code. -/
theorem dividerOf_eq_iff {m : BitVec 2} {d : Divider} : d.code.toNat = m.toNat ↔ dividerOf m = d := by
  constructor
  · intro h; have : m = d.code := (BitVec.eq_of_toNat_eq h).symm
    subst this; cases d <;> rfl
  · rintro rfl; revert m; decide

/-- A curve number above 3 is no curve. -/
theorem curveOf_of_four_le {b : Byte} (h : 4 ≤ b.toNat) : curveOf b = none := by
  unfold curveOf; rw [dif_neg (by omega)]

/-- A curve from its number. -/
theorem curveOf_of_eq {b : Byte} (c : Fin 4) (h : b.toNat = c.val) : curveOf b = some c := by
  unfold curveOf; rw [dif_pos (by omega)]; simp [h]

/-- A Condition code above 5 is no Condition. -/
theorem conditionOf_of_six_le {b : Byte} (h : 6 ≤ b.toNat) : conditionOf b = none := by
  unfold conditionOf; split <;> first | omega | rfl

/-- A Condition from its code. -/
theorem conditionOf_of_code {b : Byte} (c : Condition) (h : c.code = b) : conditionOf b = some c := by
  subst h; cases c <;> rfl

/-- A Capture Edge code above 2 is no Capture Edge. -/
theorem captureEdgeOf_of_three_le {b : Byte} (h : 3 ≤ b.toNat) : captureEdgeOf b = none := by
  unfold captureEdgeOf; split_ifs <;> simp_all

/-- A Capture Edge from its code. -/
theorem captureEdgeOf_of_code {b : Byte} (c : CaptureEdge) (h : c.code = b) :
    captureEdgeOf b = some c := by
  subst h; cases c <;> rfl

/-- A Match Mode code above 1 is no Match Mode. -/
theorem matchModeOf_of_two_le {b : Byte} (h : 2 ≤ b.toNat) : matchModeOf b = none := by
  unfold matchModeOf; split_ifs <;> simp_all

/-- A Match Mode from its code. -/
theorem matchModeOf_of_le {b : Byte} (h : b.toNat ≤ 1) :
    matchModeOf b = some (if b.toNat = 0 then .or else .and) := by
  have : b = 0 ∨ b = 1 := by
    rcases Nat.le_one_iff_eq_zero_or_eq_one.1 h with h | h
    · left; exact BitVec.eq_of_toNat_eq h
    · right; exact BitVec.eq_of_toNat_eq h
  rcases this with rfl | rfl <;> rfl

/-- A Part from its code. -/
theorem partOf_eq_some (b : Byte) (p : Part) : partOf b = some p ↔ b = p.code := by
  unfold partOf; cases p <;> simp only [Part.code] <;> split_ifs <;> simp_all

/-- A channel from a byte. -/
theorem channelOf_byte_eq_some (b : Byte) (c : Fin 16) :
    channelOf (b.setWidth 16) = some c ↔ b.toNat = c.val := by
  have := b.isLt
  have e : (b.setWidth 16).toNat = b.toNat := by simp; omega
  unfold channelOf
  split
  · rename_i h; rw [e] at h; simp only [Option.some.injEq, Fin.ext_iff]; omega
  · rename_i h; rw [e] at h; simp; omega

/-- A sense line from a byte. -/
theorem lineOf_byte_eq_some (b : Byte) (c : Fin 8) :
    lineOf (b.setWidth 16) = some c ↔ b.toNat = c.val := by
  have := b.isLt
  have e : (b.setWidth 16).toNat = b.toNat := by simp; omega
  unfold lineOf
  split
  · rename_i h; rw [e] at h; simp only [Option.some.injEq, Fin.ext_iff]; omega
  · rename_i h; rw [e] at h; simp; omega

/-- The byte of a sense line. -/
theorem byte_eq_line_iff (b : Byte) (c : Fin 8) : b.toNat = c.val ↔ b = BitVec.ofNat 8 c.val := by
  constructor
  · intro h; apply BitVec.eq_of_toNat_eq; simp; omega
  · rintro rfl; simp; omega

/-- The byte of a channel. -/
theorem byte_eq_channel_iff (b : Byte) (c : Fin 16) : b.toNat = c.val ↔ b = BitVec.ofNat 8 c.val := by
  constructor
  · intro h; apply BitVec.eq_of_toNat_eq; simp; omega
  · rintro rfl; simp; omega

/-- A Source from its code and Argument (R36). -/
theorem sourceOf_eq_some (c x : Byte) (s : Source) :
    sourceOf c x = some s ↔ c = s.code.1 ∧ ∀ y, s.code.2 = some y → x = y := by
  have hc : ∀ n : Nat, n < 256 → (c = BitVec.ofNat 8 n ↔ c.toNat = n) := by
    intro n hn; constructor
    · rintro rfl; simp; omega
    · intro h; apply BitVec.eq_of_toNat_eq; simp; omega
  have h0 := hc 0 (by omega); have h1 := hc 1 (by omega); have h2 := hc 2 (by omega); have h3 := hc 3 (by omega)
  have h4 := hc 4 (by omega); have h5 := hc 5 (by omega); have h6 := hc 6 (by omega); have h7 := hc 7 (by omega)
  unfold sourceOf
  split <;> rename_i hn <;> cases s <;> simp_all [Source.code, lineOf_byte_eq_some, channelOf_byte_eq_some, byte_eq_line_iff, byte_eq_channel_iff]

/-! ## Entries, headers and cells -/

/-- The entry that a WRITE_ENTRY carries (R36). -/
theorem entryOf_eq_some (a : Args) (e : Entry) : entryOf a = some e ↔ carriesEntry a e := by
  have hs := slotField_toNat a
  unfold entryOf carriesEntry
  simp only [hs, getLsbD_seven]
  obtain ⟨slot, act⟩ := e
  have hslot := slot.isLt
  by_cases hle : a.a1.toNat % 128 * 256 + a.a2.toNat ≤ 511
  · have hsl : (BitVec.ofNat 9 (a.a1.toNat % 128 * 256 + a.a2.toNat) = slot) ↔ slot.toNat = a.a1.toNat % 128 * 256 + a.a2.toNat := by
      constructor
      · rintro rfl; simp; omega
      · intro h; apply BitVec.eq_of_toNat_eq; simp; omega
    simp only [hle, if_true]
    by_cases h7 : 128 ≤ a.a1.toNat
    · simp only [h7, decide_true, if_true, Option.map_map, Option.map_eq_some_iff, Function.comp, Entry.mk.injEq]
      cases act with
      | tap c p => simp; omega
      | insert so => simp only [EntryAction.insert.injEq, hsl, ← sourceOf_eq_some]; simp [and_comm]
    · simp only [h7, decide_false, Bool.false_eq_true, if_false, Option.map_eq_some_iff, Entry.mk.injEq]
      cases act with
      | insert c => 
        simp only [false_and, and_false]
        rcases channelOf (a.a3.setWidth 16) with _ | c1 <;> rcases partOf a.a4 with _ | p1 <;> simp
      | tap c p =>
        have h128 : a.a1.toNat < 128 := by omega
        simp only [hsl, ← channelOf_byte_eq_some, ← partOf_eq_some]
        rcases channelOf (a.a3.setWidth 16) with _ | c1 <;> rcases partOf a.a4 with _ | p1 <;> simp [h128] <;> tauto
  · simp only [hle, if_false]
    simp; omega

/-- The Arguments of READ_ENTRY carry the entry (R37). -/
theorem carriesEntry_args (e : Entry) : carriesEntry e.args e := by
  rw [← entryOf_eq_some]
  obtain ⟨slot, act⟩ := e
  have h9 : slot.toNat = (flagByte (slot.getLsbD 8)).toNat % 128 * 256 + (slot.setWidth 8).toNat := by
    decide +revert
  have h10 : slot.toNat = (0x80 ||| flagByte (slot.getLsbD 8)).toNat % 128 * 256 + (slot.setWidth 8).toNat := by
    decide +revert
  have h11 : ∀ b, (flagByte b).toNat < 128 ∧ 128 ≤ (0x80 ||| flagByte b).toNat := by decide
  have hp : ∀ b : Bool, flagByte b = BitVec.setWidth 8 (bit b) := fun _ => rfl
  rw [entryOf_eq_some]
  cases act with
  | tap c p => 
    refine ⟨h9, (h11 _).1, ?_, rfl⟩
    exact (byte_eq_channel_iff _ _).2 rfl
  | insert so =>
    refine ⟨h10, (h11 _).2, rfl, ?_⟩
    intro y hy
    show (so.code.2.getD 0) = y
    rw [hy]; rfl

/-- The fields of a good header (R5). -/
theorem goodHeader_of_good (b1 b2 b3 b4 b5 b6 b7 b8 : Byte) :
    headerIsGood b1 b2 b3 b4 b5 b6 b7 b8 →
      goodHeader [b1, b2, b3, b4, b5, b6, b7, b8] = some
        { bank := if b1.getLsbD 3 then .b else .a, blackout := b1.getLsbD 2, frameIndex := b2, lastIndex := b3,
          heartbeat := b4, hopCount := b5, slotCount := b6.toNat % 4 * 256 + b7.toNat } := by
  rintro ⟨h1, h2, h3, h4, h5⟩
  unfold goodHeader
  simp only [slotCountOf_eq]
  rw [if_pos ⟨h1, (versionField_iff _).2 h2, h3, h4, h5⟩]

/-- A bad header has no fields (R5). -/
theorem goodHeader_of_bad (b1 b2 b3 b4 b5 b6 b7 b8 : Byte) :
    ¬ headerIsGood b1 b2 b3 b4 b5 b6 b7 b8 → goodHeader [b1, b2, b3, b4, b5, b6, b7, b8] = none := by
  intro h
  unfold goodHeader
  simp only [slotCountOf_eq]
  rw [if_neg]
  rintro ⟨h1, h2, h3, h4, h5⟩
  exact h ⟨h1, (versionField_iff _).1 h2, h3, h4, h5⟩

/-- The Slot Count of a good header (R5). -/
theorem goodHeader_bounds (l : List Byte) (h : Header) (hg : goodHeader l = some h) :
    16 ≤ h.slotCount ∧ h.slotCount ≤ 512 ∧ l.length = 8 := by
  unfold goodHeader at hg
  split at hg
  · split at hg
    · next hc => injection hg with hg; subst hg; exact ⟨hc.2.2.2.1, hc.2.2.2.2, rfl⟩
    · cases hg
  · cases hg

/-- A regenerated header has eight bytes. -/
theorem regenerated_length (l : List Byte) (h : l.length = 8) : (regenerated l).length = 8 := by
  unfold regenerated; split
  · split <;> rfl
  · exact h

/-- A position is at most 250 (R20). -/
theorem positionOf_le (b : Byte) : (positionOf b).toNat ≤ 250 := by
  unfold positionOf; split
  · rw [BitVec.toNat_add]; simp; omega
  · simp

/-- Each request is found by its Code byte (R182). -/
theorem requestOf_byte (c : RequestCode) : requestOf c.byte = some c := by
  cases c <;> rfl

/-- The bytes of a request cell are read back as the request. -/
theorem cellOf_requestBytes (code : Byte) (q : Req) :
    cellOf (requestBytes code q) = some (0x01, code, q) := by
  unfold requestBytes withCheck argBytes
  simp only [List.cons_append, List.nil_append, cellOf, if_true]
  rw [show word16 (hiByte q.index) (loByte q.index) = q.index by rw [word16_eq_wordAt, wordAt_hiByte_loByte]]

/-- A cell of Kind REQUEST has the bytes of its request. -/
theorem requestBytes_of_cellOf (l : List Byte) (code : Byte) (q : Req)
    (h : cellOf l = some (0x01, code, q)) : l = requestBytes code q := by
  unfold cellOf at h
  split at h
  · split at h
    · next hc =>
      simp only [Option.some.injEq, Prod.mk.injEq] at h
      obtain ⟨rfl, rfl, rfl⟩ := h
      unfold requestBytes withCheck argBytes
      simp only [hiByte_word16, loByte_word16, hc, List.cons_append, List.nil_append]
    · cases h
  · cases h

/-- A reply has sixteen bytes. -/
theorem replyBytes_length (c : Byte) (q : Req) (r : Reply) : (replyBytes c q r).length = 16 := by
  simp [replyBytes, withCheck, argBytes]

/-! ## Points of a curve -/

/-- The default points of a curve (R87). -/
theorem defaultPoints_toNat : ∀ k : Fin 17,
    (defaultPoints[k]).toNat = if k.val = 16 then 65535 else k.val * 4096 := by
  decide

/-- Each point after a WRITE_CURVE (R89). -/
theorem writePoints_get (points : Vector Level 17) (a : Args) (first count : Nat) (h3 : count ≤ 3)
    (k : Fin 17) :
    (writePoints points first (curveValues a count))[k] =
      if first ≤ k.val ∧ k.val < first + count then
        (if k.val - first = 0 then wordAt a.a1 a.a2
          else if k.val - first = 1 then wordAt a.a3 a.a4 else wordAt a.a5 a.a6)
      else points[k] := by
  unfold writePoints curveValues
  simp only [Fin.getElem_fin, Vector.getElem_ofFn, word16_eq_wordAt]
  by_cases h1 : first ≤ k.val
  · obtain ⟨j, hj⟩ : ∃ j, k.val = first + j := ⟨k.val - first, by omega⟩
    simp only [hj, Nat.add_sub_cancel_left]
    interval_cases count
    · simp
    · rcases j with _ | j <;> simp
    · rcases j with _ | _ | j <;> simp
    · rcases j with _ | _ | _ | j <;> simp
  · simp [h1]

end Sys2Proof.Machine
end

