-- ==== Sys2Proof/Laws/Requests.lean ====
section
/-! SUPPORT. How a request row runs, and what every request leaves alone. -/

namespace Sys2Proof.Machine

/-- A cell is handed to the Agent. -/
theorem State.handsCell_of_cellHanded {s : State} (h : s.cellHanded) : s.handsCell = true := by
  obtain ⟨h1, ⟨sl, h2⟩, h3, h4⟩ := h
  simp only [State.handsCell, h1, h2]; simpa using ⟨h3, h4⟩

/-- No cell is handed to the Agent. -/
theorem State.handsCell_of_not {s : State} (h : ¬ s.cellHanded) : s.handsCell = false := by
  rw [Bool.eq_false_iff]
  intro hh; apply h
  unfold State.handsCell at hh
  split at hh
  · rename_i sl h1 h2; 
    have := of_decide_eq_true hh
    exact ⟨h1, ⟨sl, h2⟩, this.1, this.2⟩
  · cases hh

/-- An addressed request is executed (R146). -/
theorem State.request_addressed {s : State} {q : Req} (h : s.addressed q) (c : RequestCode) (p : Req)
    (hp : p.destination = q.destination) : s.request c p = s.execute c p := by
  simp [State.request, State.handsCell_of_cellHanded h.1, State.agentRequest, hp, h.2]

/-- Every request row is one request at the Agent. -/
theorem exec_requestRow {i : Instr} {c : RequestCode} {q : Req} (h : requestRow i = some (c, q)) (s : State) :
    exec i s = .next (s.request c q) := by
  cases i <;> simp [requestRow] at h <;> obtain ⟨rfl, rfl⟩ := h <;> rfl

/-- An open bank is admitted (R34). -/
theorem MapStore.admit_of_bankOpen {s : State} {q : Req} {name : BankName} (h : s.bankOpen q name) (b : Bool) :
    s.map.nameBank q.object b = .ok name := by
  obtain ⟨h1, h2, h3, h4⟩ := h
  have hb : bankOf q.object = some name := by rw [h1]; cases name <;> rfl
  simp [MapStore.nameBank, hb, h2, h3, h4]

/-- A bank that is admitted for a change is an open shadow (R34). -/
theorem MapStore.nameBank_open {m : MapStore} {o : Byte} {n : BankName} (h : m.nameBank o true = .ok n) :
    n ≠ m.active ∧ (m.bank n).state ≠ .copying ∧ (m.bank n).state ≠ .checking := by
  unfold MapStore.nameBank at h
  split at h
  · cases h
  · split at h
    · cases h
    · split at h
      · cases h
      · injection h with h; subst h
        rename_i h1 h2
        refine ⟨by simpa using h1, ?_, ?_⟩ <;> tauto

/-- What every request leaves alone: the delay line, the cell and the checks, the frame, the position and the link
state, and the commands waiting. -/
def keptByRequest (s t : State) : Prop :=
  t.link.delay = s.link.delay ∧ t.link.receivedCheck = s.link.receivedCheck ∧ t.link.frame = s.link.frame
    ∧ t.link.cell = s.link.cell ∧ t.link.sentCheck = s.link.sentCheck ∧ t.link.position = s.link.position
    ∧ t.link.state = s.link.state ∧ t.pending = s.pending

/-- The statuses that refuse a request. -/
def Status.refuses (x : Status) : Prop := x ∈ [Status.busy, .locked, .range, .state, .full, .unknown]

/-- The shape of a request's outcome: it leaves the link's stream alone, and a refused one changes nothing and carries
a status alone (R147). -/
def outcomeShape (s : State) (q : Req) (r : State × Reply) : Prop :=
  keptByRequest s r.1 ∧ (r.2.status.refuses → r = (s, answer q r.2.status))

/-- Nothing changed. -/
theorem keptByRequest_refl (s : State) : keptByRequest s s := ⟨rfl, rfl, rfl, rfl, rfl, rfl, rfl, rfl⟩

/-- A status alone. -/
theorem outcomeShape_answer (s : State) (q : Req) (st : Status) :
    outcomeShape s q (s, answer q st) := ⟨keptByRequest_refl s, fun _ => rfl⟩

/-- A value read. -/
theorem outcomeShape_answerArgs (s : State) (q : Req) (a : Args) : outcomeShape s q (s, answerArgs q a) :=
  ⟨keptByRequest_refl s, fun h => by simp [Status.refuses, answerArgs] at h⟩

/-- A request carried out. -/
theorem outcomeShape_done (s t : State) (q : Req) (r : Reply) (hk : keptByRequest s t)
    (h : r.status = .ok ∨ r.status = .accepted ∨ r.status = .empty) : outcomeShape s q (t, r) :=
  ⟨hk, fun hb => by rcases h with h | h | h <;> simp [Status.refuses, h] at hb⟩

/-- Every request, whatever it does (R147). -/
theorem RequestCode.run_outcomeShape (c : RequestCode) (q : Req) (s : State) :
    outcomeShape s q (c.run q s) := by
  cases c <;> simp only [RequestCode.run]
  · exact outcomeShape_answerArgs _ _ _
  · unfold reqReadStatus; split <;> try split
    all_goals first | exact outcomeShape_answerArgs _ _ _ | exact outcomeShape_answer _ _ _
  · unfold reqSetNode; split
    · exact outcomeShape_answer _ _ _
    · exact outcomeShape_done _ _ _ _ ⟨rfl, rfl, rfl, rfl, rfl, rfl, rfl, rfl⟩ (Or.inl rfl)
  · unfold reqReadNode; split
    · exact outcomeShape_answer _ _ _
    · exact outcomeShape_answerArgs _ _ _
  · unfold reqWriteEntry; split
    · exact outcomeShape_answer _ _ _
    · dsimp only; split_ifs
      · exact outcomeShape_answer _ _ _
      · exact outcomeShape_answer _ _ _
      all_goals
        split
        · exact outcomeShape_answer _ _ _
        · exact outcomeShape_done _ _ _ _ ⟨rfl, rfl, rfl, rfl, rfl, rfl, rfl, rfl⟩ (Or.inl rfl)
  · unfold reqReadEntry; split
    · exact outcomeShape_answer _ _ _
    · split
      · exact outcomeShape_answer _ _ _
      · exact outcomeShape_done _ _ _ _ (keptByRequest_refl _) (Or.inl rfl)
  · unfold reqTruncateBank; split
    · exact outcomeShape_answer _ _ _
    · dsimp only; split_ifs
      · exact outcomeShape_answer _ _ _
      · exact outcomeShape_done _ _ _ _ ⟨rfl, rfl, rfl, rfl, rfl, rfl, rfl, rfl⟩ (Or.inl rfl)
  · unfold reqClearBank; split
    · exact outcomeShape_answer _ _ _
    · exact outcomeShape_done _ _ _ _ ⟨rfl, rfl, rfl, rfl, rfl, rfl, rfl, rfl⟩ (Or.inl rfl)
  · unfold reqCopyBank; split
    · exact outcomeShape_answer _ _ _
    · exact outcomeShape_done _ _ _ _ ⟨rfl, rfl, rfl, rfl, rfl, rfl, rfl, rfl⟩ (Or.inr (Or.inl rfl))
  · unfold reqCommitBank; split
    · exact outcomeShape_answer _ _ _
    · dsimp only; split_ifs
      · exact outcomeShape_answer _ _ _
      · exact outcomeShape_done _ _ _ _ ⟨rfl, rfl, rfl, rfl, rfl, rfl, rfl, rfl⟩ (Or.inr (Or.inl rfl))
  · unfold reqWriteChannel reqWriteOutput reqWriteGroup; split
    · exact outcomeShape_answer _ _ _
    · split
      · split
        · exact outcomeShape_answer _ _ _
        · exact outcomeShape_done _ _ _ _ ⟨rfl, rfl, rfl, rfl, rfl, rfl, rfl, rfl⟩ (Or.inl rfl)
      · split
        · exact outcomeShape_answer _ _ _
        · exact outcomeShape_done _ _ _ _ ⟨rfl, rfl, rfl, rfl, rfl, rfl, rfl, rfl⟩ (Or.inl rfl)
      · split
        · exact outcomeShape_answer _ _ _
        · exact outcomeShape_done _ _ _ _ ⟨rfl, rfl, rfl, rfl, rfl, rfl, rfl, rfl⟩ (Or.inl rfl)
      · exact outcomeShape_answer _ _ _
  · unfold reqReadChannel; split
    · exact outcomeShape_answer _ _ _
    · dsimp only; split
      all_goals first | exact outcomeShape_answerArgs _ _ _ | exact outcomeShape_answer _ _ _ | exact outcomeShape_done _ _ _ _ (keptByRequest_refl _) (Or.inl rfl)
  · unfold reqWriteCurve; split
    · exact outcomeShape_answer _ _ _
    · split_ifs
      · exact outcomeShape_answer _ _ _
      · exact outcomeShape_answer _ _ _
      · exact outcomeShape_done _ _ _ _ ⟨rfl, rfl, rfl, rfl, rfl, rfl, rfl, rfl⟩ (Or.inl rfl)
  · unfold reqReadCurve; split
    · exact outcomeShape_answer _ _ _
    · split_ifs
      · exact outcomeShape_answer _ _ _
      · exact outcomeShape_done _ _ _ _ (keptByRequest_refl _) (Or.inl rfl)
  · unfold reqWriteSense; dsimp only; split
    · exact outcomeShape_answer _ _ _
    · exact outcomeShape_done _ _ _ _ ⟨rfl, rfl, rfl, rfl, rfl, rfl, rfl, rfl⟩ (Or.inl rfl)
  · unfold reqReadSense; split
    · exact outcomeShape_done _ _ _ _ (keptByRequest_refl _) (Or.inl rfl)
    · split_ifs
      · exact outcomeShape_answerArgs _ _ _
      · exact outcomeShape_answer _ _ _
  · unfold reqSetOverride; split
    · exact outcomeShape_done _ _ _ _ ⟨rfl, rfl, rfl, rfl, rfl, rfl, rfl, rfl⟩ (Or.inl rfl)
    · exact outcomeShape_done _ _ _ _ ⟨rfl, rfl, rfl, rfl, rfl, rfl, rfl, rfl⟩ (Or.inl rfl)
    · split
      · exact outcomeShape_answer _ _ _
      · exact outcomeShape_done _ _ _ _ ⟨rfl, rfl, rfl, rfl, rfl, rfl, rfl, rfl⟩ (Or.inl rfl)
    · exact outcomeShape_answer _ _ _
  · exact outcomeShape_done _ _ _ _ ⟨rfl, rfl, rfl, rfl, rfl, rfl, rfl, rfl⟩ (Or.inl rfl)
  · exact outcomeShape_done _ _ _ _ ⟨rfl, rfl, rfl, rfl, rfl, rfl, rfl, rfl⟩ (Or.inl rfl)
  · unfold reqClearInterlock; split_ifs
    · exact outcomeShape_answer _ _ _
    · exact outcomeShape_done _ _ _ _ ⟨rfl, rfl, rfl, rfl, rfl, rfl, rfl, rfl⟩ (Or.inl rfl)
    · exact outcomeShape_answer _ _ _
  · unfold reqFetchEvent; split
    · exact outcomeShape_done _ _ _ _ (keptByRequest_refl _) (Or.inr (Or.inr rfl))
    · exact outcomeShape_done _ _ _ _ ⟨rfl, rfl, rfl, rfl, rfl, rfl, rfl, rfl⟩ (Or.inl rfl)
  · exact outcomeShape_answerArgs _ _ _
  · exact outcomeShape_done _ _ _ _ ⟨rfl, rfl, rfl, rfl, rfl, rfl, rfl, rfl⟩ (Or.inl rfl)
  · exact outcomeShape_done _ _ _ _ ⟨rfl, rfl, rfl, rfl, rfl, rfl, rfl, rfl⟩ (Or.inl rfl)
  · unfold reqReadCounters; split
    · split_ifs
      · exact outcomeShape_done _ _ _ _ ⟨rfl, rfl, rfl, rfl, rfl, rfl, rfl, rfl⟩ (Or.inl rfl)
      · exact outcomeShape_done _ _ _ _ (keptByRequest_refl _) (Or.inl rfl)
    · split_ifs
      · exact outcomeShape_done _ _ _ _ ⟨rfl, rfl, rfl, rfl, rfl, rfl, rfl, rfl⟩ (Or.inl rfl)
      · exact outcomeShape_done _ _ _ _ (keptByRequest_refl _) (Or.inl rfl)
    · exact outcomeShape_answer _ _ _
  · unfold reqResetNode; split
    · exact outcomeShape_answer _ _ _
    · exact outcomeShape_done _ _ _ _ ⟨rfl, rfl, rfl, rfl, rfl, rfl, rfl, rfl⟩ (Or.inl rfl)

end Sys2Proof.Machine
end

