-- ==== Sys2Proof/Laws/Slots.lean ====
section
/-! SUPPORT. The acting-frame decision and the walk at one slot. -/

namespace Sys2Proof.Machine

/-- The acting-frame decision (R56, R58). -/
theorem State.decideActing_eq (s : State) :
    s.decideActing = { s with slot := s.slotAtHeader s.link.position } := by
  unfold State.decideActing State.slotAtHeader
  have : (s.link.position ≠ 0 ∧ s.link.position.toNat ≤ 250 ∧ s.agent.params.passive = false) ↔ (1 ≤ s.link.position.toNat ∧ s.link.position.toNat ≤ 250 ∧ s.agent.params.passive = false) := by
    have : s.link.position ≠ 0 ↔ 1 ≤ s.link.position.toNat := by
      constructor
      · intro h; by_contra hh; apply h; apply BitVec.eq_of_toNat_eq; simp; omega
      · rintro h hh; rw [hh] at h; simp at h
    rw [this]
  by_cases h : (1 ≤ s.link.position.toNat ∧ s.link.position.toNat ≤ 250 ∧ s.agent.params.passive = false)
  · rw [if_pos (this.2 h), if_pos h]
    unfold SlotEngine.startFrame State.freshBuffer fillingBuffer
    split_ifs <;> rfl
  · rw [if_neg (mt this.1 h), if_neg h]

/-- An entry performed leaves the link and the place alone. -/
theorem State.perform_frame (s : State) (e : Entry) (b c : Byte) :
    (s.perform e b c).1.link = s.link ∧ (s.perform e b c).1.slot.place = s.slot.place := by
  unfold State.perform
  split
  · exact ⟨rfl, rfl⟩
  · unfold State.afterInsert; split <;> exact ⟨rfl, rfl⟩

/-- An entry performed does not look at the place. -/
theorem State.perform_place (s : State) (e : Entry) (b c : Byte) (p : Nat) :
    (State.perform { s with slot := { s.slot with place := p } } e b c)
      = ({ (s.perform e b c).1 with slot := { (s.perform e b c).1.slot with place := p } },
          (s.perform e b c).2) := by
  obtain ⟨sl, act⟩ := e
  cases act with
  | tap c p => rfl
  | insert src => cases src <;> rfl

/-- The walk performs the entries of its slot in index order (R59). -/
theorem State.walkSlot_eq (n : Nat) (b : Byte) (later : List Entry)
    (hl : ∀ e, later.head? = some e → e.slot.toNat ≠ n) :
    ∀ (here : List Entry) (s : State) (c : Byte), (∀ e ∈ here, e.slot.toNat = n) →
      State.walkSlot n b (here ++ later) s c =
        (let done := here.foldl (fun (acc : State × Byte) e => acc.1.perform e b acc.2) (s, c)
         ({ done.1 with slot := { done.1.slot with place := s.slot.place + here.length } }, done.2)) := by
  intro here
  induction here with
  | nil => intro s c _
           rcases later with _ | ⟨e, l⟩
           · rfl
           · simp only [List.nil_append, State.walkSlot]; rw [if_neg (hl e rfl)]; rfl
  | cons e es ih =>
    intro s c hh
    simp only [List.cons_append, State.walkSlot]
    rw [if_pos (hh e (by simp)), ih _ _ (fun x hx => hh x (by simp [hx]))]
    simp only [List.foldl_cons]
    generalize hd : s.perform e b c = d
    have hp : d.1.slot.place = s.slot.place := by rw [← hd]; exact (State.perform_frame _ _ _ _).2
    have key : ∀ (l : List Entry) (t : State) (x : Byte) (p : Nat), l.foldl (fun (acc : State × Byte) e => acc.1.perform e b acc.2) ({ t with slot := { t.slot with place := p } }, x) =
       ({ (l.foldl (fun (acc : State × Byte) e => acc.1.perform e b acc.2) (t, x)).1 with slot := { (l.foldl (fun (acc : State × Byte) e => acc.1.perform e b acc.2) (t, x)).1.slot with place := p } }, (l.foldl (fun (acc : State × Byte) e => acc.1.perform e b acc.2) (t, x)).2) := by
      intro l
      induction l with
      | nil => intro t x p; rfl
      | cons y ys ih2 => intro t x p; simp only [List.foldl_cons]; rw [State.perform_place, ih2]
    rw [key]
    simp only [hp, List.length_cons]
    have : s.slot.place + 1 + es.length = s.slot.place + (es.length + 1) := by omega
    rw [this]

/-- Entries performed leave the link alone. -/
theorem State.foldl_perform_link (b : Byte) : ∀ (here : List Entry) (x : State × Byte),
    (here.foldl (fun (acc : State × Byte) e => acc.1.perform e b acc.2) x).1.link = x.1.link := by
  intro here; induction here with
  | nil => intro x; rfl
  | cons e es ih => intro x; simp only [List.foldl_cons]; rw [ih]; exact (State.perform_frame _ _ _ _).1

end Sys2Proof.Machine
end

