-- ==== Sys2Proof/Laws/Link.lean ====
section
/-! SUPPORT. Headers, the heartbeat watch, and the ends of a frame. -/

namespace Sys2Proof.Machine

/-! ## Headers -/

/-- A header proved bad (R9, R10, R12). -/
theorem State.badHeader_eq (s : State) (l : LinkFramer) (h : l.state = s.link.state)
    (hb : l.badHeaders = s.link.badHeaders) (hd : s.link.state ≠ .down) :
    State.badHeader { s with link := l } = s.headerProvedBad l := by
  unfold State.badHeader State.headerProvedBad
  simp only [h]
  rcases hs : s.link.state with _ | _ | _ | _
  · exact absurd hs hd
  · rfl
  · rfl
  · simp only [State.leaveForHunt, indexPast, LinkFramer.afterBadHeader, SlotEngine.freeBoth_eq, hb]
    by_cases h2 : s.link.badHeaders < 2
    · rw [if_neg (by omega), if_pos h2]; rw [hs] at h; rw [h]
    · rw [if_pos (by omega), if_neg h2]

/-- What a bad header leaves alone. -/
theorem State.badHeader_frame (s : State) :
    s.badHeader.link.delay = s.link.delay ∧ s.badHeader.link.position = s.link.position
      ∧ s.badHeader.link.frameClock = s.link.frameClock ∧ s.badHeader.map = s.map
      ∧ s.badHeader.level = s.level ∧ s.badHeader.generators = s.generators ∧ s.badHeader.time = s.time
      ∧ s.badHeader.sense = s.sense ∧ s.badHeader.agent.params = s.agent.params
      ∧ s.badHeader.pending = s.pending := by
  unfold State.badHeader
  split
  · simp
  · simp
  · simp
  · dsimp only
    split
    · refine ⟨rfl, rfl, rfl, rfl, rfl, rfl, rfl, rfl, Agent.params_take _ _ _, rfl⟩
    · simp

/-- The eighth byte of a good header (R5). -/
theorem exec_headerEighth_good (s : State) (b1 b2 b3 b4 b5 b6 b7 b8 : Byte) (h0 : s.link.state ≠ .down)
    (h1 : s.link.frame = .header) (hh : s.link.header = [b1, b2, b3, b4, b5, b6, b7])
    (hg : headerIsGood b1 b2 b3 b4 b5 b6 b7 b8) :
    exec (.headerEighthByteArrival b8) s
      = .next (State.takeHeader
          { s with link := { s.link with
              delay := s.link.delay ++ [.data b8], header := [b1, b2, b3, b4, b5, b6, b7, b8] } }
          { bank := if b1.getLsbD 3 then .b else .a, blackout := b1.getLsbD 2, frameIndex := b2,
            lastIndex := b3, heartbeat := b4, hopCount := b5, slotCount := b6.toNat % 4 * 256 + b7.toNat }) := by
  simp only [exec, execHeaderEighthByteArrival, State.receiveByte, h1, h0, if_false]
  simp only [hh, List.length_cons, List.length_nil, State.headerEighth, LinkFramer.put]
  rw [if_neg (by omega)]
  simp only [List.cons_append, List.nil_append, goodHeader_of_good _ _ _ _ _ _ _ _ hg, h1]

/-! ## The heartbeat watch -/

/-- The stale limit is reached at a boundary (R25). -/
def LinkFramer.reachesLimit (l : LinkFramer) (p : NodeParams) (heartbeat : Byte) : Prop :=
  l.reference = some heartbeat ∧ p.staleLimit ≠ 0 ∧ p.staleLimit.toNat ≤ min (l.staleCount + 1) 255
    ∧ l.staleStage ≠ 2

/-- The stale warning is reached at a boundary (R25). -/
def LinkFramer.reachesWarn (l : LinkFramer) (p : NodeParams) (heartbeat : Byte) : Prop :=
  l.reference = some heartbeat ∧ ¬ l.reachesLimit p heartbeat ∧ p.staleWarn ≠ 0
    ∧ p.staleWarn.toNat ≤ min (l.staleCount + 1) 255 ∧ l.staleStage = 0

/-- The heartbeat has changed at a boundary (R24). -/
def LinkFramer.heartbeatChanged (l : LinkFramer) (heartbeat : Byte) : Prop :=
  l.reference ≠ none ∧ ¬ l.reference = some heartbeat

/-- The heartbeat watch at a boundary, case by case (R24, R25). -/
theorem LinkFramer.watch_cases (l : LinkFramer) (p : NodeParams) (hb : Byte) :
    (l.reference = none ∧ l.watch p hb = ({ l with reference := some hb }, none))
      ∨ (l.reference = some hb ∧ l.reachesLimit p hb ∧ l.watch p hb =
          ({ l with staleCount := min (l.staleCount + 1) 255, staleStage := 2, staleCause := true },
            some (.heartbeat 2 (min (l.staleCount + 1) 255))))
      ∨ (l.reference = some hb ∧ l.reachesWarn p hb ∧ l.watch p hb =
          ({ l with staleCount := min (l.staleCount + 1) 255, staleStage := 1 },
            some (.heartbeat 1 (min (l.staleCount + 1) 255))))
      ∨ (l.reference = some hb ∧ ¬ l.reachesLimit p hb ∧ ¬ l.reachesWarn p hb ∧ l.watch p hb =
          ({ l with staleCount := min (l.staleCount + 1) 255 }, none))
      ∨ (l.heartbeatChanged hb ∧ l.staleStage = 0 ∧ l.watch p hb =
          ({ l with reference := some hb, staleCount := 0 }, none))
      ∨ (l.heartbeatChanged hb ∧ l.staleStage ≠ 0 ∧ l.watch p hb =
          ({ l with reference := some hb, staleCount := 0, staleStage := 0, staleCause := false },
            some (.heartbeat 0 l.staleCount))) := by
  rcases hr : l.reference with _ | r
  · left; refine ⟨rfl, ?_⟩; unfold LinkFramer.watch; rw [hr]
  · right
    by_cases hrb : r = hb
    · subst hrb
      have hlt : l.staleStage < 2 ↔ l.staleStage ≠ 2 := by generalize l.staleStage = x; revert x; decide
      have e : l.watch p r = ({ l with staleCount := min (l.staleCount + 1) 255 } : LinkFramer).evaluateStale p := by
        unfold LinkFramer.watch; rw [hr]; simp
      rw [e]
      unfold LinkFramer.evaluateStale
      by_cases hl : LinkFramer.reachesLimit l p r
      · left; refine ⟨rfl, hl, ?_⟩
        obtain ⟨_, h2, h3, h4⟩ := hl
        rw [if_pos ⟨h2, h3, hlt.2 h4⟩]; dsimp only; first | rfl | rw [hr]
      · right
        have hl' : ¬ (p.staleLimit ≠ 0 ∧ p.staleLimit.toNat ≤ min (l.staleCount + 1) 255 ∧ l.staleStage < 2) := by
          rintro ⟨h2, h3, h4⟩; exact hl ⟨hr, h2, h3, hlt.1 h4⟩
        by_cases hw : LinkFramer.reachesWarn l p r
        · left; refine ⟨rfl, hw, ?_⟩
          obtain ⟨_, _, h2, h3, h4⟩ := hw
          rw [if_neg hl', if_pos ⟨h2, h3, h4⟩]; dsimp only; rw [hr]
        · right; left; refine ⟨rfl, hl, hw, ?_⟩
          rw [if_neg hl', if_neg (by rintro ⟨h2, h3, h4⟩; exact hw ⟨hr, hl, h2, h3, h4⟩), hr]
    · right; right; right
      have hc : LinkFramer.heartbeatChanged l hb := ⟨by simp [hr], by simp [hr, hrb]⟩
      by_cases h0 : l.staleStage = 0
      · left; refine ⟨hc, h0, ?_⟩; unfold LinkFramer.watch; rw [hr]; simp [hrb, h0]
      · right; refine ⟨hc, h0, ?_⟩; unfold LinkFramer.watch; rw [hr]; simp [hrb, h0]

/-- The watch raises HEARTBEAT alone. -/
theorem LinkFramer.watch_kind (l : LinkFramer) (p : NodeParams) (hb : Byte) (x : Event)
    (h : (LinkFramer.watch l p hb).2 = some x) : x.kind.code = 7 := by
  rcases LinkFramer.watch_cases l p hb with w | w | w | w | w | w
  · rw [w.2] at h; cases h
  · rw [w.2.2] at h; cases h; rfl
  · rw [w.2.2] at h; cases h; rfl
  · rw [w.2.2.2] at h; cases h
  · rw [w.2.2] at h; cases h
  · rw [w.2.2] at h; cases h; rfl

/-! ## The end of a frame -/

/-- What a truncation leaves alone (R17). -/
theorem State.truncate_frame (s : State) :
    s.truncate.link.delay = s.link.delay ∧ s.truncate.link.position = s.link.position
      ∧ s.truncate.link.frameClock = s.link.frameClock ∧ s.truncate.pending = s.pending
      ∧ (s.agent.resetScope = none →
          s.truncate.map = s.map ∧ s.truncate.level = s.level ∧ s.truncate.generators = s.generators
            ∧ s.truncate.time = s.time ∧ s.truncate.sense = s.sense
            ∧ s.truncate.agent.params = s.agent.params) := by
  unfold State.truncate State.endFrame
  split
  · simp
  · next scope h => 
    obtain ⟨hl, -, -, -, -, -, -, -, -, -, -, hp⟩ := State.applyReset_blocks
      { s with
        link := { s.link with frame := .between, truncatedFrames := countUp s.link.truncatedFrames }
        slot := s.slot.endBad } scope
    simp at h
    refine ⟨?_, ?_, ?_, hp, by simp [h]⟩ <;> rw [hl] <;> cases scope <;> rfl

/-- The last cell byte of a LOCKED frame (R19). -/
theorem exec_cellLast (s : State) (b : Byte) (slots : Nat) (h1 : s.link.state = .locked)
    (h2 : s.link.frame = .good 23 slots) :
    exec (.cellLastByteArrival b) s = .next (s.cellLast b slots) := by
  simp [exec, execCellLastByteArrival, State.receiveByte, h1, h2, State.flightByte]

/-- A slot byte of a LOCKED frame (R59). -/
theorem exec_slot (s : State) (b : Byte) (n slots : Nat) (h1 : s.link.state = .locked)
    (h2 : s.link.frame = .good (24 + n) slots) (h3 : n < slots) :
    exec (.slotArrival b) s = .next (s.slotByte b (25 + n) slots) := by
  have e : 24 + n + 1 = 25 + n := by omega
  simp only [exec, execSlotArrival, State.receiveByte, h1, h2, State.flightByte, e]
  rw [if_neg (by simp), if_pos True.intro, if_neg (by omega), if_neg (by omega), if_pos (by omega)]

end Sys2Proof.Machine
end

