-- ==== Sys2Proof/Laws/Map.lean ====
section
/-! SUPPORT. The COMMIT walk, the swap decision, and what keeps the Map Store in order. -/

namespace Sys2Proof.Machine

/-! ## The walk -/

/-- The last of the first entries of a list. -/
theorem getLast?_take_eq {α : Type} (l : List α) (i : Nat) (h : i ≤ l.length) :
    (l.take i).getLast? = if i = 0 then none else l[i-1]? := by
  rcases i with _ | i
  · simp
  · rw [List.getLast?_eq_getElem?, List.getElem?_take]; simp; congr 1; omega

/-- The slot-order test (R44). -/
theorem slotOrderFault_iff (es : List Entry) (i : Nat) (e : Entry) (he : es[i]? = some e) :
    ((es.take i).getLast?.any (fun before => decide (e.slot < before.slot)) = true) ↔ slotOrderFaultAt es i := by
  have hi : i < es.length := by
    by_contra hh; rw [List.getElem?_eq_none (by omega)] at he; cases he
  rw [getLast?_take_eq _ _ hi.le]
  unfold slotOrderFaultAt
  by_cases h0 : i = 0
  · simp [h0]
  · rw [if_neg h0]
    constructor
    · intro h
      rcases hb : es[i-1]? with _ | b
      · rw [hb] at h; simp at h
      · rw [hb] at h; exact ⟨b, e, by omega, rfl, he, by simpa using h⟩
    · rintro ⟨b, e', _, hb, he', hlt⟩
      rw [he] at he'; cases he'
      rw [hb]; simpa using hlt

/-- The double-insert test (R44). -/
theorem doubleInsertFault_iff (es : List Entry) (i : Nat) (e : Entry) (he : es[i]? = some e) :
    ((e.isInsert && (es.take i).any (fun f => f.isInsert && f.slot == e.slot)) = true)
      ↔ doubleInsertFaultAt es i := by
  unfold doubleInsertFaultAt
  simp only [Bool.and_eq_true, List.any_eq_true, beq_iff_eq]
  constructor
  · rintro ⟨h1, f, hf, h2, h3⟩
    obtain ⟨j, hj, hjf⟩ := List.mem_take_iff_getElem.1 hf
    exact ⟨e, f, j, by omega, he, by rw [List.getElem?_eq_getElem (by omega), hjf], h1, h2, h3⟩
  · rintro ⟨e', f, j, hj, he', hf, h1, h2, h3⟩
    rw [he] at he'; cases he'
    refine ⟨h1, f, ?_, h2, h3⟩
    obtain ⟨hjl, hjf⟩ := List.getElem?_eq_some_iff.1 hf
    exact List.mem_take_iff_getElem.2 ⟨j, by omega, hjf⟩

/-- The fault a walk finds at an index (R44). -/
theorem commitFault_eq_some (es : List Entry) (i : Nat) (f : CommitFault) :
    commitFault es i = some f ↔ commitFaultAt es i f := by
  unfold commitFault
  rcases he : es[i]? with _ | e
  · simp only [reduceCtorEq, false_iff]
    unfold commitFaultAt
    cases f
    · rintro ⟨b, e', _, _, h, _⟩; rw [he] at h; cases h
    · rintro ⟨_, e', f, j, _, h, _⟩; rw [he] at h; cases h
  · simp only
    by_cases h1 : slotOrderFaultAt es i
    · rw [if_pos ((slotOrderFault_iff es i e he).2 h1)]
      cases f <;> simp [commitFaultAt, h1]
    · rw [if_neg (mt (slotOrderFault_iff es i e he).1 h1)]
      by_cases h2 : doubleInsertFaultAt es i
      · rw [if_pos ((doubleInsertFault_iff es i e he).2 h2)]
        cases f <;> simp [commitFaultAt, h1, h2]
      · rw [if_neg (mt (doubleInsertFault_iff es i e he).1 h2)]
        cases f <;> simp [commitFaultAt, h1, h2]

/-- No fault at an index (R44). -/
theorem commitFault_eq_none (es : List Entry) (i : Nat) :
    commitFault es i = none ↔ ∀ f, ¬ commitFaultAt es i f := by
  rw [Option.eq_none_iff_forall_ne_some]; simp only [← commitFault_eq_some, ne_eq]

/-- A fault is at an entry. -/
theorem commitFaultAt_lt {es : List Entry} {i : Nat} {f : CommitFault} (h : commitFaultAt es i f) :
    i < es.length := by
  rw [← commitFault_eq_some] at h
  unfold commitFault at h
  by_contra hh; rw [List.getElem?_eq_none (by omega)] at h; cases h

/-- A walk over entries without a fault. -/
theorem commitWalk_of_none (es : List Entry) : ∀ todo i,
    (∀ j, i ≤ j → j < i + todo → commitFault es j = none) → commitWalk es i todo = (i + todo, none) := by
  intro todo
  induction todo with
  | zero => intro i _; rfl
  | succ n ih =>
    intro i h
    unfold commitWalk
    rw [h i (by omega) (by omega)]
    simp only
    rw [ih (i+1) (fun j h1 h2 => h j (by omega) (by omega))]; congr 1; omega

/-- A walk stops at the first fault. -/
theorem commitWalk_of_some (es : List Entry) (k : Nat) (f : CommitFault) (hk : commitFault es k = some f) :
    ∀ todo i, i ≤ k → k < i + todo → (∀ j, i ≤ j → j < k → commitFault es j = none) →
      commitWalk es i todo = (k, some f) := by
  intro todo
  induction todo with
  | zero => intro i _ _; omega
  | succ n ih =>
    intro i h1 h2 h
    unfold commitWalk
    rcases Nat.lt_or_eq_of_le h1 with hlt | rfl
    · rw [h i (by omega) hlt]; exact ih (i+1) (by omega) (by omega) (fun j h3 h4 => h j (by omega) h4)
    · rw [hk]

/-! ## The swap decision -/

/-- The decision at a boundary (R47, R48, R49). -/
theorem MapStore.boundary_eq (m : MapStore) (named : BankName) : m.boundary named =
    ((if named = m.active then { m with misaligned := false }
      else if (m.bank named).state = .ready then { m with active := named, misaligned := false }
      else { m with misaligned := true }),
    if named ≠ m.active ∧ (m.bank named).state = .ready then
      some (.bankSwitched named (m.bank named).count)
    else if named ≠ m.active ∧ (m.bank named).state ≠ .ready ∧ m.misaligned = false then
      some (.swapRefused named (m.bank named).state)
    else none) := by
  unfold MapStore.boundary
  by_cases h1 : named = m.active
  · simp [h1]
  · by_cases h2 : (m.bank named).state = .ready
    · simp [h1, h2]
    · cases h3 : m.misaligned <;> simp [h1, h2]

/-! ## The Map Store in order -/

/-- The Map Store in order, bank by bank. -/
theorem MapStore.inOrder_iff (m : MapStore) : m.inOrder ↔
    (∀ n, (m.bank n).inOrder) ∧ m.unitInOrder
      ∧ ((m.bank m.active).state = .empty ∨ (m.bank m.active).state = .ready) := by
  unfold MapStore.inOrder
  constructor
  · rintro ⟨a, b, c, d⟩; exact ⟨fun n => by cases n; exact a; exact b, c, d⟩
  · rintro ⟨a, c, d⟩; exact ⟨a .a, a .b, c, d⟩

/-- The unit is idle while the shadow is open. -/
theorem MapStore.op_none_of_open {m : MapStore} (h : m.inOrder) {n : BankName} (hn : n ≠ m.active)
    (h1 : (m.bank n).state ≠ .copying) (h2 : (m.bank n).state ≠ .checking) : m.op = none := by
  rw [MapStore.inOrder_iff] at h
  obtain ⟨_, hu, _⟩ := h
  unfold MapStore.unitInOrder at hu
  split at hu
  · assumption
  · next op hop =>
    obtain ⟨ht, hu⟩ := hu
    rw [← BankName.eq_other_of_ne hn] at ht
    split at hu
    · rw [ht] at hu; exact absurd hu.1 h1
    · rw [ht] at hu; exact absurd hu.1 h2

/-- No bank is under operation while the unit is idle. -/
theorem MapStore.open_of_op_none {m : MapStore} (h : m.inOrder) (ho : m.op = none) (n : BankName) :
    (m.bank n).state ≠ .copying ∧ (m.bank n).state ≠ .checking := by
  have := h.2.2.1; unfold MapStore.unitInOrder at this; rw [ho] at this; exact this n

/-- An edit of the shadow. -/
theorem MapStore.setBank_inOrder {m : MapStore} (h : m.inOrder) {n : BankName} (hn : n ≠ m.active)
    (ho : m.op = none) (b : Bank) (hb : b.inOrder) (hs : b.state ≠ .copying ∧ b.state ≠ .checking) :
    (m.setBank n b).inOrder := by
  have hi := MapStore.open_of_op_none h ho
  rw [MapStore.inOrder_iff] at h ⊢
  obtain ⟨h1, _, h3⟩ := h
  refine ⟨?_, ?_, ?_⟩
  · intro k; rw [MapStore.bank_setBank]; split; exact hb; exact h1 k
  · unfold MapStore.unitInOrder; rw [MapStore.op_setBank, ho]; intro k; rw [MapStore.bank_setBank]; split; exact hs; exact hi k
  · rw [MapStore.active_setBank, MapStore.bank_setBank, if_neg (Ne.symm hn)]; exact h3

/-- A table operation completed. -/
theorem MapStore.finished_inOrder {m : MapStore} (h : m.inOrder) {op : TableOp} (ho : m.op = some op) (b : Bank)
    (hb : b.inOrder) (hs : b.state ≠ .copying ∧ b.state ≠ .checking) :
    ({ m.setBank op.target b with op := none } : MapStore).inOrder := by
  rw [MapStore.inOrder_iff] at h ⊢
  obtain ⟨h1, h2, h3⟩ := h
  unfold MapStore.unitInOrder at h2
  rw [ho] at h2
  obtain ⟨ht, _⟩ := h2
  have hbk : ∀ k, ({ m.setBank op.target b with op := none } : MapStore).bank k = if k = op.target then b else m.bank k := by
    intro k; rw [← MapStore.bank_setBank]; cases k <;> rfl
  refine ⟨?_, ?_, ?_⟩
  · intro k; rw [hbk]; split; exact hb; exact h1 k
  · show ∀ k, _
    intro k; rw [hbk]; split; exact hs
    next hk =>
      have : k = m.active := by
        rw [ht] at hk; cases k <;> cases hm : m.active <;> rw [hm] at hk <;> simp_all [BankName.other]
      rw [this]; rcases h3 with h3 | h3 <;> rw [h3] <;> simp
  · show (({ m.setBank op.target b with op := none } : MapStore).bank (m.setBank op.target b).active).state = _ ∨ _ = _
    rw [hbk, MapStore.active_setBank, if_neg]
    · exact h3
    · rw [ht]; exact Ne.symm (BankName.other_ne _)

/-- Entries without a fault are validated (R31, R44). -/
theorem Bank.validated_of_noFault (es : List Entry) (st : BankState)
    (h : ∀ i, i < es.length → commitFault es i = none) : (⟨es, st⟩ : Bank).validated := by
  have hs : ∀ i, i < es.length → ¬ slotOrderFaultAt es i := by
    intro i hi hf; exact (commitFault_eq_none es i).mp (h i hi) .slotOrder hf
  have hd : ∀ i, i < es.length → ¬ doubleInsertFaultAt es i := by
    intro i hi hf; exact (commitFault_eq_none es i).mp (h i hi) .doubleInsert ⟨hs i hi, hf⟩
  constructor
  · show es.Pairwise _
    rw [← List.isChain_iff_pairwise]
    rw [List.isChain_iff_getElem]
    intro i hi
    by_contra hc
    apply hs (i+1) hi
    exact ⟨es[i], es[i+1], by omega, by simp, by simp, by rw [BitVec.not_le] at hc; exact hc⟩
  · show es.Pairwise _
    rw [List.pairwise_iff_getElem]
    intro i j hi hj hij ⟨a, b, c⟩
    apply hd j hj
    exact ⟨es[j], es[i], i, hij, by simp, by simp, b, a, c⟩

/-- An EMPTY bank. -/
theorem Bank.inOrder_emptied : Bank.emptied.inOrder := ⟨by decide, fun _ => rfl, fun h => by cases h⟩

/-- A bank in EDITING. -/
theorem Bank.inOrder_editing (es : List Entry) (h : es.length ≤ 128) :
    (⟨es, .editing⟩ : Bank).inOrder := ⟨h, fun h => by simp at h, fun h => by simp at h⟩

/-- A boundary keeps the Map Store in order. -/
theorem MapStore.boundary_inOrder {m : MapStore} (h : m.inOrder) (n : BankName) :
    (m.boundary n).1.inOrder := by
  unfold MapStore.boundary
  split
  · exact h
  · split
    · next hn hr =>
      have ho : m.op = none := MapStore.op_none_of_open h hn (by rw [hr]; simp) (by rw [hr]; simp)
      have hi := MapStore.open_of_op_none h ho
      rw [MapStore.inOrder_iff] at h ⊢
      refine ⟨h.1, ?_, Or.inr hr⟩
      unfold MapStore.unitInOrder
      show match m.op with | none => _ | some op => _
      rw [ho]; exact hi
    · exact h

/-- One entry copied. -/
theorem MapStore.copyEntry_inOrder {m : MapStore} (h : m.inOrder) : m.copyEntry.inOrder := by
  unfold MapStore.copyEntry
  split
  · next t p f ho =>
    split
    · next e he =>
      have h0 := h
      rw [MapStore.inOrder_iff] at h ⊢
      obtain ⟨h1, h2, h3⟩ := h
      unfold MapStore.unitInOrder at h2
      rw [ho] at h2
      obtain ⟨ht, h4, h5, h6, h7⟩ := h2
      dsimp only at ht h4 h5 h6 h7
      have hta : t.other = m.active := by rw [ht, BankName.other_other]
      rw [hta] at he
      have hlt : p < (m.bank m.active).entries.length := (List.getElem?_eq_some_iff.mp he).1
      have hnew : (m.bank t).entries ++ [e] = (m.bank m.active).entries.take (p + 1) := by
        rw [h7, List.take_add_one, he]; rfl
      have hne : m.active ≠ t := by rw [ht]; exact Ne.symm (BankName.other_ne _)
      have hbk : ∀ k b o, ({ m.setBank t b with op := o } : MapStore).bank k = if k = t then b else m.bank k := by
        intro k b o; rw [← MapStore.bank_setBank]; cases k <;> rfl
      have hac : ∀ b o, ({ m.setBank t b with op := o } : MapStore).active = m.active := fun b o => MapStore.active_setBank _ _ _
      refine ⟨?_, ?_, ?_⟩
      · intro k; rw [hbk]; split
        · refine ⟨?_, ?_, ?_⟩
          · show ((m.bank t).entries ++ [e]).length ≤ 128
            rw [hnew, List.length_take]; have := (h1 m.active).1; unfold Bank.count at this; omega
          · intro hs; have hs : (m.bank t).state = .empty := hs; rw [h4] at hs; cases hs
          · intro hs; have hs : (m.bank t).state = .ready := hs; rw [h4] at hs; cases hs
        · exact h1 k
      · unfold MapStore.unitInOrder
        dsimp only
        refine ⟨by rw [hac]; exact ht, ?_, h5, ?_, ?_⟩
        · rw [hbk, if_pos rfl]; exact h4
        · have e1 := fun b o => (hbk (m.setBank t b).active b o).trans (if_neg (by rw [MapStore.active_setBank]; exact hne))
          rw [e1, MapStore.active_setBank]; exact hlt
        · have e1 := fun b o => (hbk (m.setBank t b).active b o).trans (if_neg (by rw [MapStore.active_setBank]; exact hne))
          rw [hbk t, if_pos rfl, e1, MapStore.active_setBank]; exact hnew
      · have e1 := fun b o => (hbk (m.setBank t b).active b o).trans (if_neg (by rw [MapStore.active_setBank]; exact hne))
        dsimp only; rw [e1, MapStore.active_setBank]; exact h3
    · exact h
  · exact h

/-- A COPY completed. -/
theorem MapStore.copyDone_inOrder {m : MapStore} (h : m.inOrder) : m.copyDone.1.inOrder := by
  unfold MapStore.copyDone
  split
  · next t p f ho =>
    refine MapStore.finished_inOrder h ho _ (Bank.inOrder_editing _ ?_) ⟨by simp, by simp⟩
    rw [MapStore.inOrder_iff] at h
    obtain ⟨h1, h2, h3⟩ := h
    unfold MapStore.unitInOrder at h2
    rw [ho] at h2
    obtain ⟨ht, h4, h5, h6, h7⟩ := h2
    dsimp only at ht h4 h5 h6 h7
    rw [show t.other = m.active by rw [ht, BankName.other_other], h7, List.take_append_drop]
    exact (h1 m.active).1
  · exact h

/-- One entry examined. -/
theorem MapStore.examineEntry_inOrder {m : MapStore} (h : m.inOrder) : m.examineEntry.inOrder := by
  unfold MapStore.examineEntry
  split
  · next t p ho =>
    split
    · next hp =>
      have hset : ∀ o : TableOp, (o.target = m.active.other ∧ o.kind = .commit ∧ (m.bank o.target).state = .checking ∧ o.progress ≤ (m.bank o.target).count
          ∧ (∀ i, i < o.progress → commitFault (m.bank o.target).entries i = none)
          ∧ ∀ fault, o.found = some fault → commitFault (m.bank o.target).entries o.progress = some fault) → ({ m with op := some o } : MapStore).inOrder := by
        intro o ⟨a1, a2, a3, a4, a5, a6⟩
        rw [MapStore.inOrder_iff] at h ⊢
        refine ⟨h.1, ?_, h.2.2⟩
        unfold MapStore.unitInOrder
        dsimp only
        refine ⟨a1, ?_⟩
        rw [a2]
        exact ⟨a3, a4, a5, a6⟩
      have h2 := h.2.2.1
      unfold MapStore.unitInOrder at h2
      rw [ho] at h2
      obtain ⟨ht, h4, h5, h6, h7⟩ := h2
      dsimp only at ht h4 h5 h6 h7
      split
      · next hn =>
        refine hset _ ⟨ht, rfl, h4, hp, ?_, by simp⟩
        intro i hi
        rcases Nat.lt_succ_iff_lt_or_eq.mp hi with hi | hi
        · exact h6 i hi
        · rw [hi]; exact hn
      · next f hf =>
        exact hset _ ⟨ht, rfl, h4, h5, h6, fun g hg => by simp at hg; rw [← hg]; exact hf⟩
    · exact h
  · exact h

/-- A COMMIT completed. -/
theorem MapStore.commitDone_inOrder {m : MapStore} (h : m.inOrder) : m.commitDone.1.inOrder := by
  unfold MapStore.commitDone
  split
  · next t p f ho =>
    have hm := MapStore.inOrder_iff m |>.mp h
    obtain ⟨h1, h2, h3⟩ := hm
    unfold MapStore.unitInOrder at h2
    rw [ho] at h2
    obtain ⟨ht, h4, h5, h6, h7⟩ := h2
    dsimp only at ht h4 h5 h6 h7 ⊢
    split
    · next idx hw =>
      refine MapStore.finished_inOrder h ho _ ⟨(h1 t).1, by simp, fun _ => ?_⟩ ⟨by simp, by simp⟩
      refine Bank.validated_of_noFault _ _ ?_
      intro i hi
      unfold TableOp.finishWalk at hw
      dsimp only at hw
      cases f with
      | some f => simp at hw
      | none =>
        dsimp only at hw
        by_contra hc
        -- least fault
        have hex : ∃ j, commitFault (m.bank t).entries j ≠ none := ⟨i, hc⟩
        classical
        let k := Nat.find hex
        have hk : commitFault (m.bank t).entries k ≠ none := Nat.find_spec hex
        obtain ⟨g, hg⟩ := Option.ne_none_iff_exists'.mp hk
        have hlt : k < (m.bank t).entries.length := commitFaultAt_lt ((commitFault_eq_some _ _ _).mp hg)
        have hpk : p ≤ k := by
          by_contra hc2
          exact hk (h6 k (by omega))
        have h5' : p ≤ (m.bank t).entries.length := h5
        rw [commitWalk_of_some _ k g hg _ _ hpk (by omega) (fun j h1 h2 => by
          have := Nat.find_min hex h2; simpa using this)] at hw
        simp at hw
    · exact MapStore.finished_inOrder h ho _ (Bank.inOrder_editing _ (h1 t).1) ⟨by simp, by simp⟩
  · exact h

/-- What is owed has no part in the Map Store's order. -/
theorem MapStore.inOrder_owed {m : MapStore} (h : m.inOrder) (e : Option Event) :
    ({ m with owed := e } : MapStore).inOrder := h

/-- What a completion can do: the Map Store ends as `finish` ends it or stays, but for what it owes, and nothing
outside it changes but flags and queue. -/
theorem State.complete_spec (s : State) (finish : MapStore → MapStore × Option Event) (part : Completion) :
    let t := s.complete finish part
    (∃ e, t.map = { s.map with owed := e } ∨ t.map = { (finish s.map).1 with owed := e })
      ∧ t.link = s.link ∧ t.slot = s.slot ∧ t.level = s.level ∧ t.generators = s.generators
      ∧ t.sense = s.sense ∧ t.time = s.time ∧ t.agent.params = s.agent.params ∧ t.agent.mask = s.agent.mask
      ∧ t.agent.resetScope = s.agent.resetScope ∧ t.choices = s.choices ∧ t.pending = s.pending := by
  have hf : ∀ t : State, t = s.freeUnit finish →
      (∃ e, t.map = { s.map with owed := e } ∨ t.map = { (finish s.map).1 with owed := e })
        ∧ t.link = s.link ∧ t.slot = s.slot ∧ t.level = s.level ∧ t.generators = s.generators
        ∧ t.sense = s.sense ∧ t.time = s.time ∧ t.agent.params = s.agent.params
        ∧ t.agent.mask = s.agent.mask ∧ t.agent.resetScope = s.agent.resetScope ∧ t.choices = s.choices
        ∧ t.pending = s.pending := by
    rintro _ rfl
    unfold State.freeUnit
    split
    · exact ⟨⟨s.map.owed, Or.inl rfl⟩, rfl, rfl, rfl, rfl, rfl, rfl, rfl, rfl, rfl, rfl, rfl⟩
    · next m e h => exact ⟨⟨some e, Or.inr (by rw [h])⟩, s.placeOwed_frame⟩
  cases part
  · obtain ⟨⟨e, he⟩, h⟩ := hf _ rfl
    refine ⟨⟨none, ?_⟩, ?_⟩
    · show (s.freeUnit finish).placeOwed.map = _ ∨ (s.freeUnit finish).placeOwed.map = _
      rw [State.map_placeOwed]
      rcases he with he | he <;> rw [he] <;> simp
    · obtain ⟨p1, p2, p3, p4, p5, p6, p7, p8, p9, p10, p11⟩ := (s.freeUnit finish).placeOwed_frame
      obtain ⟨h1, h2, h3, h4, h5, h6, h7, h8, h9, h10, h11⟩ := h
      exact ⟨p1.trans h1, p2.trans h2, p3.trans h3, p4.trans h4, p5.trans h5, p6.trans h6, p7.trans h7,
        p8.trans h8, p9.trans h9, p10.trans h10, p11.trans h11⟩
  · exact hf _ rfl
  · exact ⟨⟨none, Or.inl s.map_placeOwed⟩, s.placeOwed_frame⟩

/-- A completion keeps the Map Store in order. -/
theorem State.complete_inOrder {s : State} {finish : MapStore → MapStore × Option Event} (part : Completion)
    (h : s.map.inOrder) (hf : (finish s.map).1.inOrder) : (s.complete finish part).map.inOrder := by
  obtain ⟨⟨e, he | he⟩, -⟩ := s.complete_spec finish part <;> rw [he]
  · exact MapStore.inOrder_owed h e
  · exact MapStore.inOrder_owed hf e

end Sys2Proof.Machine
end

