-- ==== Sys2Proof/Laws/Outputs.lean ====
section
/-! SUPPORT. Fades, curves, writes to a channel, and the generators. -/

namespace Sys2Proof.Machine

/-! ## Levels -/

/-- A fade step as a number (R94). -/
theorem fadeToward_toNat (c t r : Level) :
    (fadeToward c t r).toNat = fadedLevel c.toNat t.toNat r.toNat := by
  unfold fadeToward fadedLevel
  have hr : r = 0 ↔ r.toNat = 0 := by rw [← BitVec.toNat_inj]; rfl
  have := c.isLt; have := t.isLt; have := r.isLt
  by_cases h : r = 0 ∨ (c.toNat ≤ t.toNat ∧ t.toNat - c.toNat ≤ r.toNat) ∨ (t.toNat < c.toNat ∧ c.toNat - t.toNat ≤ r.toNat)
  · rw [if_pos h, if_pos (by rw [hr] at h; omega)]
  · rw [if_neg h]
    have h' := h
    rw [hr] at h
    have h2 : ¬ (r.toNat = 0 ∨ t.toNat - c.toNat + (c.toNat - t.toNat) ≤ r.toNat) := by omega
    rw [if_neg h2]
    by_cases hlt : c < t
    · rw [if_pos hlt]; rw [BitVec.lt_def] at hlt; rw [if_pos hlt, BitVec.toNat_add]; omega
    · rw [if_neg hlt]; rw [BitVec.lt_def] at hlt; rw [if_neg hlt, BitVec.toNat_sub]; omega

/-- A value of a segment lies between its points. -/
theorem segment_bounds (f n fr : Nat) (hfr : fr < 4096) :
    min (f : Int) n ≤ f + (((n : Int) - f) * (fr : Nat)).tdiv 4096
      ∧ (f : Int) + (((n : Int) - f) * (fr : Nat)).tdiv 4096 ≤ max (f : Int) n := by
  have hd : ∀ d : Nat, d * fr / 4096 ≤ d := by
    intro d
    calc d * fr / 4096 ≤ d * 4096 / 4096 := Nat.div_le_div_right (Nat.mul_le_mul_left _ (by omega))
      _ = d := by omega
  by_cases hc : f ≤ n
  · obtain ⟨d, rfl⟩ := Nat.exists_eq_add_of_le hc
    have : (((f + d : Nat) : Int) - f) * (fr : Nat) = ((d * fr : Nat) : Int) := by push_cast; ring
    rw [this]
    have h2 : ((d * fr : Nat) : Int).tdiv 4096 = ((d * fr / 4096 : Nat) : Int) := rfl
    rw [h2]; have := hd d; generalize d * fr / 4096 = q at *; omega
  · obtain ⟨d, rfl⟩ := Nat.exists_eq_add_of_le (Nat.le_of_not_le hc)
    have : ((n : Int) - ((n + d : Nat) : Int)) * (fr : Nat) = -((d * fr : Nat) : Int) := by push_cast; ring
    rw [this, Int.neg_tdiv]
    have h2 : ((d * fr : Nat) : Int).tdiv 4096 = ((d * fr / 4096 : Nat) : Int) := rfl
    rw [h2]; have := hd d; generalize d * fr / 4096 = q at *; omega

/-- A level from an integer. -/
theorem toNat_ofInt_level (v : Int) (h0 : 0 ≤ v) (h1 : v < 65536) :
    ((BitVec.ofInt 16 v).toNat : Int) = v := by
  rw [BitVec.toNat_ofInt]; omega

/-- A curve at a raw value (R88). -/
theorem evalPoints_spec (p : Vector Level 17) (r : Level) (h : r.toNat / 4096 < 17)
    (h' : r.toNat / 4096 + 1 < 17) :
    let first : Int := (p[r.toNat / 4096]).toNat
    let next : Int := (p[r.toNat / 4096 + 1]).toNat
    let value : Int := (evalPoints p r).toNat
    value = first + ((next - first) * (r.toNat % 4096 : Nat)).tdiv 4096
      ∧ min first next ≤ value ∧ value ≤ max first next ∧ (r.toNat % 4096 = 0 → value = first) := by
  dsimp only
  have k := segment_bounds (p[r.toNat / 4096]).toNat (p[r.toNat / 4096 + 1]).toNat (r.toNat % 4096) (by omega)
  have l1 := (p[r.toNat / 4096]).isLt
  have l2 := (p[r.toNat / 4096 + 1]).isLt
  have e : ((evalPoints p r).toNat : Int) = (p[r.toNat / 4096]).toNat + (((p[r.toNat / 4096 + 1]).toNat - (p[r.toNat / 4096]).toNat : Int) * (r.toNat % 4096 : Nat)).tdiv 4096 := by
    unfold evalPoints
    dsimp only
    exact toNat_ofInt_level _ (by push_cast at *; omega) (by push_cast at *; omega)
  rw [e]
  refine ⟨rfl, k.1, k.2, ?_⟩
  intro h0; rw [h0]; simp

/-! ## Writes to a channel -/

/-- The range tests as numbers (R85). -/
theorem inRange_toNat (p f : BitVec 16) :
    decide (16 ≤ p ∧ f < p) = decide (16 ≤ p.toNat ∧ f.toNat < p.toNat) := rfl

/-- An OUTPUT write to a disabled channel out of range (R85). -/
theorem writeOutput_disabled_range (a : Args) (c : Channel) (g : Generator) (hen : c.enabled = false)
    (h : 4 ≤ a.a1.toNat % 16
      ∨ ¬ (16 ≤ (wordAt a.a2 a.a3).toNat ∧ (wordAt a.a4 a.a5).toNat < (wordAt a.a2 a.a3).toNat)) :
    writeOutput (outputGroupOf a) c g = .error .range := by
  unfold writeOutput outputGroupOf OutputGroup.inRange
  simp only [hen, word16_eq_wordAt]
  rcases h with h | h
  · rw [modeOf_of_four_le (m := a.a1.extractLsb' 0 4) (by rw [lowNibble_toNat]; exact h)]; simp
  · rcases modeOf (a.a1.extractLsb' 0 4) with _ | m
    · simp
    · rw [inRange_toNat, decide_eq_false h]; simp

/-- An OUTPUT write to a disabled channel, and the enable (R85, R120). -/
theorem writeOutput_disabled_ok (a : Args) (c : Channel) (g : Generator) (hen : c.enabled = false) (mode : Mode)
    (divider : Divider) (hm : mode.code.toNat = a.a1.toNat % 16)
    (hd : divider.code.toNat = a.a1.toNat / 16 % 4)
    (h : 16 ≤ (wordAt a.a2 a.a3).toNat ∧ (wordAt a.a4 a.a5).toNat < (wordAt a.a2 a.a3).toNat) :
    writeOutput (outputGroupOf a) c g = .ok
      (if 128 ≤ a.a1.toNat then
        ({ c with mode := mode, divider := divider, period := wordAt a.a2 a.a3, phase := wordAt a.a4 a.a5,
                  inverted := a.a1.getLsbD 6, enabled := true },
          ⟨false, (wordAt a.a4 a.a5).toNat, wordAt a.a2 a.a3, none, 0, 0, none, false, 0, 0, true, 0⟩)
      else
        ({ c with mode := mode, divider := divider, period := wordAt a.a2 a.a3, phase := wordAt a.a4 a.a5,
                  inverted := a.a1.getLsbD 6 },
          { g with runningPeriod := wordAt a.a2 a.a3 })) := by
  have hd' : dividerOf (a.a1.extractLsb' 4 2) = divider := by
    rw [← dividerOf_eq_iff, hd]; simp [Nat.shiftRight_eq_div_pow]
  unfold writeOutput outputGroupOf OutputGroup.inRange
  simp only [hen, word16_eq_wordAt, getLsbD_seven, hd']
  rw [modeOf_of_code (m := a.a1.extractLsb' 0 4) (by rw [lowNibble_toNat]; exact hm), inRange_toNat, decide_eq_true h]
  by_cases he : 128 ≤ a.a1.toNat
  · simp [he, Generator.enabledAt, Generator.powerOn]
  · simp [he]

/-- The write locks of an enabled channel (R85). -/
theorem outputGroup_meetsLock_iff (a : Args) (c : Channel) : (outputGroupOf a).meetsLock c = true ↔
    (c.mode.code.toNat ≠ a.a1.toNat % 16 ∨ c.divider.code.toNat ≠ a.a1.toNat / 16 % 4
      ∨ c.phase ≠ wordAt a.a4 a.a5 ∨ c.inverted ≠ a.a1.getLsbD 6) := by
  unfold OutputGroup.meetsLock outputGroupOf
  simp only [Bool.or_eq_true, bne_iff_ne, word16_eq_wordAt, ← lowNibble_toNat]
  have : a.a1.toNat / 16 % 4 = (a.a1.extractLsb' 4 2).toNat := by simp [Nat.shiftRight_eq_div_pow]
  rw [this, Ne.eq_def (c.divider.code.toNat), dividerOf_eq_iff]
  have h2 : c.mode.code.toNat ≠ (BitVec.extractLsb' 0 4 a.a1).toNat ↔ (a.a1.extractLsb' 0 4) ≠ c.mode.code := by
    rw [ne_comm, Ne.eq_def, Ne.eq_def, BitVec.toNat_inj]
  rw [h2, ne_comm (a := c.phase), ne_comm (a := c.inverted)]
  tauto

/-- An OUTPUT write that meets a write lock (R85). -/
theorem writeOutput_enabled_locked (a : Args) (c : Channel) (g : Generator) (hen : c.enabled = true)
    (hm : (outputGroupOf a).meetsLock c = true) :
    writeOutput (outputGroupOf a) c g = .error .locked := by
  simp [writeOutput, hen, hm]

/-- An OUTPUT write to an enabled channel out of range (R85). -/
theorem writeOutput_enabled_range (a : Args) (c : Channel) (g : Generator) (hen : c.enabled = true)
    (hm : ¬ (outputGroupOf a).meetsLock c = true)
    (h : ¬ (16 ≤ (wordAt a.a2 a.a3).toNat ∧ (wordAt a.a4 a.a5).toNat < (wordAt a.a2 a.a3).toNat)) :
    writeOutput (outputGroupOf a) c g = .error .range := by
  have : (outputGroupOf a).inRange = false := by
    unfold outputGroupOf OutputGroup.inRange; simp only [word16_eq_wordAt]; rw [inRange_toNat, decide_eq_false h]
  simp [writeOutput, hen, hm, this]

/-- An OUTPUT write to an enabled channel, and the disable (R85, R107, R119). -/
theorem writeOutput_enabled_ok (a : Args) (c : Channel) (g : Generator) (hen : c.enabled = true)
    (hm : ¬ (outputGroupOf a).meetsLock c = true)
    (h : 16 ≤ (wordAt a.a2 a.a3).toNat ∧ (wordAt a.a4 a.a5).toNat < (wordAt a.a2 a.a3).toNat) :
    writeOutput (outputGroupOf a) c g = .ok
      (if 128 ≤ a.a1.toNat then
        ({ c with period := wordAt a.a2 a.a3 },
          if wordAt a.a2 a.a3 = c.period then g
          else { g with pendingPeriod := (if wordAt a.a2 a.a3 = g.runningPeriod then none
            else some (wordAt a.a2 a.a3)) })
      else
        ({ c with period := wordAt a.a2 a.a3, enabled := false, demanded := 0 },
          ⟨false, 0, wordAt a.a2 a.a3, none, 0, 0, none, false, 0, 0, false, 0⟩)) := by
  have h1 : (outputGroupOf a).inRange = true := by
    unfold outputGroupOf OutputGroup.inRange; simp only [word16_eq_wordAt]; rw [inRange_toNat, decide_eq_true h]
  have h2 : (outputGroupOf a).enabled = decide (128 ≤ a.a1.toNat) := by simp only [outputGroupOf, getLsbD_seven]
  have h3 : (outputGroupOf a).period = wordAt a.a2 a.a3 := by simp only [outputGroupOf, word16_eq_wordAt]
  simp only [writeOutput, hen, hm, h1, h2, h3]
  by_cases he : 128 ≤ a.a1.toNat
  · simp [he, Generator.writePeriod]; split_ifs <;> rfl
  · simp [he, Generator.disabledAt, Generator.powerOn]

/-- A LEVEL write out of range (R84). -/
theorem Channel.writeLevel_range (a : Args) (c : Channel) (h : 4 ≤ a.a1.toNat ∨ 2 ≤ a.a6.toNat) :
    c.writeLevel a = none := by
  unfold Channel.writeLevel
  rcases h with h | h
  · have : curveOf a.a1 = none := by unfold curveOf; rw [dif_neg (by omega)]
    simp [this]
  · rw [flagOf_of_two_le h]; simp

/-- A LEVEL write (R84). -/
theorem Channel.writeLevel_ok (a : Args) (c : Channel) (curve : Fin 4) (h : a.a1.toNat = curve.val)
    (h2 : a.a6.toNat ≤ 1) :
    c.writeLevel a = some { c with
      curve := curve, fadeRate := wordAt a.a2 a.a3, fallbackLevel := wordAt a.a4 a.a5,
      exempt := decide (a.a6.toNat = 1) } := by
  unfold Channel.writeLevel
  have : curveOf a.a1 = some curve := by unfold curveOf; rw [dif_pos (by omega)]; simp [h]
  rw [this, flagOf_of_le h2]; simp [word16_eq_wordAt]

/-- A TRIGGER write out of range (R84). -/
theorem Channel.writeTrigger_range (a : Args) (c : Channel)
    (h : ¬ (wordAt a.a1 a.a2 ≠ 0 ∧ (wordAt a.a3 a.a4).toNat < (wordAt a.a1 a.a2).toNat ∧ a.a5 ≠ 0
      ∧ a.a6.toNat ≤ 1)) : c.writeTrigger a = none := by
  unfold Channel.writeTrigger
  simp only [word16_eq_wordAt]
  split_ifs with h'
  · rfl
  · rw [not_or, not_or] at h'
    have : ¬ (wordAt a.a1 a.a2).toNat ≤ (wordAt a.a3 a.a4).toNat := h'.2.1
    rw [flagOf_of_two_le]; rfl
    by_contra hh; apply h; refine ⟨h'.1, by omega, h'.2.2, by omega⟩

/-- A TRIGGER write (R84). -/
theorem Channel.writeTrigger_ok (a : Args) (c : Channel)
    (h : (wordAt a.a1 a.a2 ≠ 0 ∧ (wordAt a.a3 a.a4).toNat < (wordAt a.a1 a.a2).toNat ∧ a.a5 ≠ 0
      ∧ a.a6.toNat ≤ 1)) :
    c.writeTrigger a = some { c with
      onThreshold := wordAt a.a1 a.a2, offThreshold := wordAt a.a3 a.a4, pulseWidth := a.a5,
      retrigger := decide (a.a6.toNat = 1) } := by
  unfold Channel.writeTrigger
  simp only [word16_eq_wordAt]
  rw [if_neg, flagOf_of_le h.2.2.2]; rfl
  rw [not_or, not_or]; refine ⟨h.1, ?_, h.2.2.1⟩
  intro (hh : (wordAt a.a1 a.a2).toNat ≤ (wordAt a.a3 a.a4).toNat); omega

/-! ## Generators -/

/-- The duty as a number (R108). -/
theorem dutyOf_eq (v p : Level) :
    dutyOf v p = if v.toNat = 65535 then p.toNat else v.toNat * p.toNat / 65536 := by
  unfold dutyOf
  have : v = 65535 ↔ v.toNat = 65535 := by rw [← BitVec.toNat_inj]; rfl
  simp only [this]

/-- The flash interval is 2 to 129 steps (R111). -/
theorem flashInterval_bounds (v : Level) (hv : v ≠ 0) : 2 ≤ flashInterval v ∧ flashInterval v ≤ 129 := by
  have : v.toNat ≠ 0 := by intro h; apply hv; exact BitVec.eq_of_toNat_eq (by simpa using h)
  unfold flashInterval; omega

/-- PWM clocks within one period (R106, R108). -/
theorem Generator.pwmClock_iterate (g : Generator) (m : Mode)
    (hl : m = .dim → (g.lineActive = true ↔ g.counter < g.activeDuty)) :
    ∀ k, g.counter + k < g.runningPeriod.toNat →
      (fun g => Generator.pwmClock g m)^[k] g
        = { g with counter := g.counter + k,
                   lineActive := if m = .dim then decide (g.counter + k < g.activeDuty) else g.lineActive } := by
  intro k
  induction k with
  | zero =>
    intro _
    have : (if m = .dim then decide (g.counter + 0 < g.activeDuty) else g.lineActive) = g.lineActive := by
      split
      · next h => have := hl h; by_cases h2 : g.lineActive = true <;> simp_all
      · rfl
    rw [this]; rfl
  | succ k ih =>
    intro h
    rw [Function.iterate_succ_apply', ih (by omega)]
    unfold Generator.pwmClock
    dsimp only
    rw [if_neg (by omega)]
    by_cases hm : m = .dim <;> simp [hm, Nat.add_assoc]

/-- A period end keeps a generator in order. -/
theorem Generator.periodEnd_inOrder (g : Generator) (c : Channel) (hc : c.inOrder) (h : g.runningInOrder c) :
    (g.periodEnd c.mode).runningInOrder c := by
  obtain ⟨⟨p1, p2, p3, p4⟩, hm⟩ := h
  have hcp := hc.1
  unfold Generator.periodEnd
  cases hmode : c.mode
  · rw [hmode] at hm
    obtain ⟨m1, m2, m3⟩ := hm
    simp only [if_true]
    refine ⟨⟨by dsimp only; rw [p3]; exact hcp, by dsimp only; rw [p3]; omega, by dsimp only; simpa using p3, ?_⟩, ?_⟩
    · dsimp only
      cases hp : g.pendingPeriod <;> cases hd : g.pendingDuty <;> simp [p4]
    · rw [hmode]; exact ⟨m1, m2, by simp⟩
  all_goals
    rw [hmode] at hm
    simp only [reduceCtorEq, if_false]
    refine ⟨⟨by dsimp only; rw [p3]; exact hcp, by dsimp only; rw [p3]; omega, by dsimp only; simpa using p3, ?_⟩, ?_⟩
    · dsimp only
      obtain ⟨d1, d2, d3⟩ : g.dimAtRest := hm.1
      rw [d1, d2, dutyOf]; simp
    · rw [hmode]; exact hm

/-- A PWM clock keeps a generator in order. -/
theorem Generator.pwmClock_inOrder (g : Generator) (c : Channel) (hc : c.inOrder) (h : g.runningInOrder c) :
    (g.pwmClock c.mode).runningInOrder c := by
  unfold Generator.pwmClock
  split
  · exact Generator.periodEnd_inOrder g c hc h
  · next hlt =>
    obtain ⟨⟨p1, p2, p3, p4⟩, hm⟩ := h
    refine ⟨⟨p1, by dsimp only; omega, p3, p4⟩, ?_⟩
    cases hmode : c.mode <;> rw [hmode] at hm <;> simp only [reduceCtorEq, if_false, if_true]
    · exact ⟨hm.1, hm.2.1, by simp⟩
    · exact hm
    · exact hm
    · exact hm

/-- The end of the active part keeps a generator in order. -/
theorem Generator.dutyEnd_inOrder (g : Generator) (c : Channel) (hd : c.mode = .dim)
    (h : g.runningInOrder c) : (g.dutyEnd).runningInOrder c := by
  unfold Generator.dutyEnd
  split
  · next hlt =>
    obtain ⟨⟨p1, p2, p3, p4⟩, hm⟩ := h
    refine ⟨⟨p1, hlt.2, p3, p4⟩, ?_⟩
    rw [hd] at hm ⊢
    exact ⟨hm.1, hm.2.1, by simp⟩
  · exact h

/-- A flash keeps a generator in order. -/
theorem Generator.startFlash_inOrder (g : Generator) (c : Channel) (v : Level) (hv : v ≠ 0) (w : Byte)
    (hw : 1 ≤ w.toNat) (h : g.periodInOrder c) (hmode : c.mode = .strobe) (hd : g.dimAtRest)
    (hp : g.pulseRemaining = 0) : (g.startFlash v w).runningInOrder c := by
  have := flashInterval_bounds v hv
  refine ⟨h, ?_⟩
  rw [hmode]
  refine ⟨hd, hp, ?_, ?_⟩
  · simp [Generator.startFlash, flashLength]; omega
  · simp [Generator.startFlash, flashLength]; omega

/-- A step tick keeps a generator in order. -/
theorem Generator.step_inOrder (g : Generator) (c : Channel) (hc : c.inOrder) (h : g.runningInOrder c) :
    (g.step c).runningInOrder c := by
  have h0 := h
  unfold Generator.step
  split
  swap
  · exact h
  obtain ⟨hp, hm⟩ := h
  cases hmode : c.mode
  · dsimp only
    rw [hmode] at hm
    refine ⟨hp, ?_⟩
    rw [hmode]; exact hm
  · dsimp only
    rw [hmode] at hm
    obtain ⟨m1, m2, m3, m4⟩ := hm
    unfold Generator.strobeStep
    split
    · next hcyc =>
      rw [if_pos hcyc] at m4
      split
      · refine ⟨hp, ?_⟩
        rw [hmode]; exact ⟨m1, m2, by simp, by simp⟩
      · next hv =>
        dsimp only
        split
        · exact Generator.startFlash_inOrder _ c _ hv _ hc.2.2.2.1 hp hmode m1 m2
        · next hne =>
          refine ⟨hp, ?_⟩
          rw [hmode]
          refine ⟨m1, m2, ?_, ?_⟩
          · dsimp only; split
            · simp [*]
            · rw [m3]; omega
          · dsimp only; rw [if_pos hcyc]; omega
    · split
      · exact h0
      · next hv => exact Generator.startFlash_inOrder _ c _ hv _ hc.2.2.2.1 hp hmode m1 m2
  · dsimp only
    rw [hmode] at hm
    unfold Generator.switchStep
    split
    · refine ⟨hp, ?_⟩; rw [hmode]; exact hm
    · split
      · refine ⟨hp, ?_⟩; rw [hmode]; exact hm
      · exact h0
  · dsimp only
    rw [hmode] at hm
    obtain ⟨m1, m2, m3, m4⟩ := hm
    have hcnt : g.pulseCountdown.runningInOrder c := by
      refine ⟨hp, ?_⟩
      rw [hmode]
      refine ⟨m1, m2, by simp [Generator.pulseCountdown]; omega, ?_⟩
      simp only [Generator.pulseCountdown]
      split
      · simp [*]
      · rw [m4]; omega
    have hcnt2 := hcnt
    obtain ⟨k0, k⟩ := hcnt
    rw [hmode] at k
    unfold Generator.pulseStep
    dsimp only
    split
    · refine ⟨k0, ?_⟩; rw [hmode]; exact k
    · split
      · unfold Generator.trigger
        split
        · refine ⟨k0, ?_⟩; rw [hmode]
          refine ⟨k.1, k.2.1, ?_, ?_⟩
          · have := c.pulseWidth.isLt; dsimp only; omega
          · have := hc.2.2.2.1; simp; omega
        · refine ⟨k0, ?_⟩; rw [hmode]; exact k
      · exact hcnt2

/-- Of the channel, a generator in order depends on mode and period alone. -/
theorem Generator.runningInOrder_congr (g : Generator) (c d : Channel) (h1 : d.mode = c.mode)
    (h2 : d.period = c.period) (h : g.runningInOrder c) : g.runningInOrder d := by
  obtain ⟨⟨a, b, c', d'⟩, e⟩ := h
  refine ⟨⟨a, b, by rw [h2]; exact c', d'⟩, ?_⟩
  rw [h1]; exact e

/-- A generator at an enable is in order (R120). -/
theorem Generator.enabledAt_inOrder (c : Channel) (hc : c.inOrder) :
    (Generator.enabledAt c).runningInOrder c := by
  obtain ⟨h1, h2, _⟩ := hc
  refine ⟨⟨h1, h2, rfl, ?_⟩, ?_⟩
  · simp [Generator.enabledAt, Generator.powerOn, dutyOf]
  · cases c.mode <;> simp [Generator.enabledAt, Generator.powerOn, Generator.strobeAtRest, Generator.dimAtRest]

/-- A Period write keeps a generator in order (R107). -/
theorem Generator.writePeriod_inOrder (g : Generator) (c : Channel) (new : Level)
    (h : g.runningInOrder c) :
    (g.writePeriod c.period new).runningInOrder { c with period := new } := by
  obtain ⟨⟨p1, p2, p3, p4⟩, hm⟩ := h
  unfold Generator.writePeriod
  split
  · next h => exact ⟨⟨p1, p2, by rw [h]; exact p3, p4⟩, hm⟩
  · split
    · next h => exact ⟨⟨p1, p2, by rw [h]; rfl, p4⟩, hm⟩
    · exact ⟨⟨p1, p2, rfl, p4⟩, hm⟩

end Sys2Proof.Machine
end

