-- ==== Sys2Proof/WellFormed.lean ====
section
/-! DEFINITION. When a command is well formed: a request row that names an Object or an Index carries it.
Every other operand is bounded by its type. -/

namespace Sys2Proof

/-- The Object a request row stands for, where the row's name fixes it (spec/09, section 9.4). -/
def Instr.fixedObject : Instr → Option (Req × Byte)
  | .writeChannelOutput q => some (q, 0x00)
  | .writeChannelLevel q => some (q, 0x01)
  | .writeChannelTrigger q => some (q, 0x02)
  | .setOverrideBlackout q => some (q, 0x00)
  | .setOverrideTestFull q => some (q, 0x01)
  | .setOverridePark q => some (q, 0x02)
  | .resetNodeOutputs q => some (q, 0x00)
  | .resetNodeTables q => some (q, 0x01)
  | .resetNodeEvents q => some (q, 0x02)
  | .resetNodeScopeNode q => some (q, 0x03)
  | _ => none

/-- A command is well formed when its request carries the Object, or the Index, that its row names. -/
def Instr.wellFormed (i : Instr) : Bool :=
  match i.fixedObject, i with
  | some (q, object), _ => q.object == object
  | none, .writeSenseGlobal q => q.index == 8
  | none, .writeSenseLine q => q.index != 8
  | none, _ => true

end Sys2Proof
end

