-- ==== Sys2Proof/Laws/PerInstr.lean ====
section
/-! SUPPORT. One statement about each row as syntax: in a well-formed command the request that the row hands to the
Agent is the request the command carries, whole. -/

namespace Sys2Proof.Laws.Rows

open Sys2Proof.Machine

/-- The request a command carries as an operand. -/
def carried : Instr → Option Req
  | .readIdentity q => some q
  | .readStatus q => some q
  | .setNode q => some q
  | .readNode q => some q
  | .writeEntry q => some q
  | .readEntry q => some q
  | .truncateBank q => some q
  | .clearBank q => some q
  | .copyBank q => some q
  | .commitBank q => some q
  | .writeChannelOutput q => some q
  | .writeChannelLevel q => some q
  | .writeChannelTrigger q => some q
  | .readChannel q => some q
  | .writeCurve q => some q
  | .readCurve q => some q
  | .writeSenseLine q => some q
  | .writeSenseGlobal q => some q
  | .readSense q => some q
  | .setOverrideBlackout q => some q
  | .setOverrideTestFull q => some q
  | .setOverridePark q => some q
  | .freeze q => some q
  | .thaw q => some q
  | .clearInterlock q => some q
  | .fetchEvent q => some q
  | .readFlags q => some q
  | .clearFlags q => some q
  | .setReportMask q => some q
  | .readCounters q => some q
  | .resetNodeOutputs q => some q
  | .resetNodeTables q => some q
  | .resetNodeEvents q => some q
  | .resetNodeScopeNode q => some q
  | _ => none

/-- A well-formed command hands the Agent the request it carries, and one that is no request hands it none. -/
def Statement (i : Instr) : Prop :=
  i.wellFormed = true → (requestRow i).map Prod.snd = carried i

/-- An Object already in place stays. -/
theorem object_same {q : Req} {object : Byte} (h : (q.object == object) = true) :
    some { q with object := object } = some q := by
  rw [← beq_iff_eq.1 h]

theorem powerOn (sns : Byte) : Statement (.powerOn sns) := fun _ => rfl

theorem resetNRelease (sns : Byte) : Statement (.resetNRelease sns) := fun _ => rfl

theorem frameStartMarkerArrival (sns : Byte) : Statement (.frameStartMarkerArrival sns) := fun _ => rfl

theorem dataByteArrival (b : Byte) : Statement (.dataByteArrival b) := fun _ => rfl

theorem headerEighthByteArrival (b : Byte) : Statement (.headerEighthByteArrival b) := fun _ => rfl

theorem cellLastByteArrival (b : Byte) : Statement (.cellLastByteArrival b) := fun _ => rfl

theorem slotArrival (b : Byte) : Statement (.slotArrival b) := fun _ => rfl

theorem frameCheckSecondByteArrival (b : Byte) (sns : Byte) : Statement (.frameCheckSecondByteArrival b sns) := fun _ => rfl

theorem abortMarkerArrival (sns : Byte) : Statement (.abortMarkerArrival sns) := fun _ => rfl

theorem idleArrival (sns : Byte) : Statement (.idleArrival sns) := fun _ => rfl

theorem symbolSend : Statement (.symbolSend) := fun _ => rfl

theorem frameTimeoutExpiry (sns : Byte) : Statement (.frameTimeoutExpiry sns) := fun _ => rfl

theorem baseTick (sns : Byte) : Statement (.baseTick sns) := fun _ => rfl

theorem stepTick : Statement (.stepTick) := fun _ => rfl

theorem periodEnd (channel : Fin 16) : Statement (.periodEnd channel) := fun _ => rfl

theorem dimDutyEnd (channel : Fin 16) : Statement (.dimDutyEnd channel) := fun _ => rfl

theorem copyEntryCopied : Statement (.copyEntryCopied) := fun _ => rfl

theorem copyComplete (part : Completion) : Statement (.copyComplete part) := fun _ => rfl

theorem commitEntryExamined : Statement (.commitEntryExamined) := fun _ => rfl

theorem commitComplete (part : Completion) : Statement (.commitComplete part) := fun _ => rfl

theorem readIdentity (q : Req) : Statement (.readIdentity q) := fun _ => rfl

theorem readStatus (q : Req) : Statement (.readStatus q) := fun _ => rfl

theorem setNode (q : Req) : Statement (.setNode q) := fun _ => rfl

theorem readNode (q : Req) : Statement (.readNode q) := fun _ => rfl

theorem writeEntry (q : Req) : Statement (.writeEntry q) := fun _ => rfl

theorem readEntry (q : Req) : Statement (.readEntry q) := fun _ => rfl

theorem truncateBank (q : Req) : Statement (.truncateBank q) := fun _ => rfl

theorem clearBank (q : Req) : Statement (.clearBank q) := fun _ => rfl

theorem copyBank (q : Req) : Statement (.copyBank q) := fun _ => rfl

theorem commitBank (q : Req) : Statement (.commitBank q) := fun _ => rfl

theorem writeChannelOutput (q : Req) : Statement (.writeChannelOutput q) := fun h => object_same h

theorem writeChannelLevel (q : Req) : Statement (.writeChannelLevel q) := fun h => object_same h

theorem writeChannelTrigger (q : Req) : Statement (.writeChannelTrigger q) := fun h => object_same h

theorem readChannel (q : Req) : Statement (.readChannel q) := fun _ => rfl

theorem writeCurve (q : Req) : Statement (.writeCurve q) := fun _ => rfl

theorem readCurve (q : Req) : Statement (.readCurve q) := fun _ => rfl

theorem writeSenseLine (q : Req) : Statement (.writeSenseLine q) := fun _ => rfl

theorem writeSenseGlobal (q : Req) : Statement (.writeSenseGlobal q) := fun h => by
  have e : q.index = 8 := beq_iff_eq.1 h
  show some { q with index := 8 } = some q
  rw [← e]

theorem readSense (q : Req) : Statement (.readSense q) := fun _ => rfl

theorem setOverrideBlackout (q : Req) : Statement (.setOverrideBlackout q) := fun h => object_same h

theorem setOverrideTestFull (q : Req) : Statement (.setOverrideTestFull q) := fun h => object_same h

theorem setOverridePark (q : Req) : Statement (.setOverridePark q) := fun h => object_same h

theorem freeze (q : Req) : Statement (.freeze q) := fun _ => rfl

theorem thaw (q : Req) : Statement (.thaw q) := fun _ => rfl

theorem clearInterlock (q : Req) : Statement (.clearInterlock q) := fun _ => rfl

theorem fetchEvent (q : Req) : Statement (.fetchEvent q) := fun _ => rfl

theorem readFlags (q : Req) : Statement (.readFlags q) := fun _ => rfl

theorem clearFlags (q : Req) : Statement (.clearFlags q) := fun _ => rfl

theorem setReportMask (q : Req) : Statement (.setReportMask q) := fun _ => rfl

theorem readCounters (q : Req) : Statement (.readCounters q) := fun _ => rfl

theorem resetNodeOutputs (q : Req) : Statement (.resetNodeOutputs q) := fun h => object_same h

theorem resetNodeTables (q : Req) : Statement (.resetNodeTables q) := fun h => object_same h

theorem resetNodeEvents (q : Req) : Statement (.resetNodeEvents q) := fun h => object_same h

theorem resetNodeScopeNode (q : Req) : Statement (.resetNodeScopeNode q) := fun h => object_same h

theorem pwmClock (channel : Fin 16) : Statement (.pwmClock channel) := fun _ => rfl

end Sys2Proof.Laws.Rows
end

