-- ==== Sys2Proof/Laws/RequestInvariants.lean ====
section
/-! SUPPORT. Every request keeps the Map Store, and the channels with their generators, in order. -/

namespace Sys2Proof.Machine

/-! ## Writes to a channel -/

/-- A channel record and its generator in order. -/
def Generator.inOrderFor (g : Generator) (c : Channel) : Prop :=
  c.inOrder ∧ (c.enabled = false → g = Generator.disabledAt c) ∧ (c.enabled = true → g.runningInOrder c)

/-- The element written. -/
theorem getElem_set_self {α : Type} {n : Nat} (v : Vector α n) (i : Fin n) (x : α) : (v.set i x)[i] = x := by
  simp

/-- An element written back. -/
theorem set_getElem_self {n : Nat} (v : Vector Generator n) (i : Fin n) : v.set i v[i] = v := by
  simp

/-- An OUTPUT write (R85). -/
theorem writeOutput_inOrder (a : OutputGroup) (c : Channel) (g : Generator) (h : g.inOrderFor c) (d : Channel)
    (g' : Generator) (hw : writeOutput a c g = .ok (d, g')) : g'.inOrderFor d := by
  obtain ⟨hc, hd, he⟩ := h
  unfold writeOutput at hw
  by_cases hen : c.enabled = true
  · rw [if_pos hen] at hw
    by_cases hl : a.meetsLock c = true
    · rw [if_pos hl] at hw; cases hw
    · rw [if_neg hl] at hw
      by_cases hr : (!a.inRange) = true
      · rw [if_pos hr] at hw; cases hw
      · rw [if_neg hr] at hw
        have hr : 16 ≤ a.period ∧ a.phase < a.period := by simpa [OutputGroup.inRange] using hr
        have hph : a.phase = c.phase := by
          simp [OutputGroup.meetsLock] at hl; exact hl.1.2
        rw [BitVec.le_def, BitVec.lt_def] at hr
        rw [hph] at hr
        by_cases hae : a.enabled = true
        · rw [if_pos hae] at hw
          injection hw with hw; simp only [Prod.mk.injEq] at hw; obtain ⟨rfl, rfl⟩ := hw
          refine ⟨⟨hr.1, hr.2, hc.2.2.1, hc.2.2.2.1, hc.2.2.2.2⟩, ?_, ?_⟩
          · intro h; have h : c.enabled = false := h; rw [hen] at h; cases h
          · intro _; exact Generator.writePeriod_inOrder g c _ (he hen)
        · rw [if_neg hae] at hw
          injection hw with hw; simp only [Prod.mk.injEq] at hw; obtain ⟨rfl, rfl⟩ := hw
          exact ⟨⟨hr.1, hr.2, hc.2.2.1, hc.2.2.2.1, fun _ => rfl⟩, fun _ => rfl, fun h => by cases h⟩
  · rw [if_neg hen] at hw
    have hen : c.enabled = false := by simpa using hen
    cases hmo : modeOf a.modeCode with
    | none => rw [hmo] at hw; cases hw
    | some mode =>
      rw [hmo] at hw
      dsimp only at hw
      by_cases hr : (!a.inRange) = true
      · rw [if_pos hr] at hw; cases hw
      · rw [if_neg hr] at hw
        have hr : 16 ≤ a.period ∧ a.phase < a.period := by simpa [OutputGroup.inRange] using hr
        rw [BitVec.le_def, BitVec.lt_def] at hr
        injection hw with hw; simp only [Prod.mk.injEq] at hw; obtain ⟨rfl, rfl⟩ := hw
        have hci : Channel.inOrder { c with enabled := a.enabled, mode := mode, divider := a.divider, period := a.period, phase := a.phase, inverted := a.inverted } := ⟨hr.1, hr.2, hc.2.2.1, hc.2.2.2.1, fun _ => hc.2.2.2.2 hen⟩
        refine ⟨hci, ?_, ?_⟩
        · intro h; have h : a.enabled = false := h
          rw [if_neg (by simp [h]), hd hen]; rfl
        · intro h; have h : a.enabled = true := h
          rw [if_pos h]; exact Generator.enabledAt_inOrder _ hci

/-- A LEVEL write (R84). -/
theorem Channel.writeLevel_inOrder (c : Channel) (a : Args) (d : Channel) (g : Generator) (h : g.inOrderFor c)
    (hw : c.writeLevel a = some d) : g.inOrderFor d := by
  unfold Channel.writeLevel at hw
  split at hw
  · injection hw with hw; subst hw
    obtain ⟨hc, hd, he⟩ := h
    exact ⟨hc, hd, fun h => Generator.runningInOrder_congr g c _ rfl rfl (he h)⟩
  · cases hw

/-- A TRIGGER write (R84). -/
theorem Channel.writeTrigger_inOrder (c : Channel) (a : Args) (d : Channel) (g : Generator) (h : g.inOrderFor c)
    (hw : c.writeTrigger a = some d) : g.inOrderFor d := by
  unfold Channel.writeTrigger at hw
  dsimp only at hw
  split at hw
  · cases hw
  · next hn =>
    simp only [Option.map_eq_some_iff] at hw
    obtain ⟨r, _, rfl⟩ := hw
    obtain ⟨hc, hd, he⟩ := h
    refine ⟨⟨hc.1, hc.2.1, ?_, ?_, hc.2.2.2.2⟩, hd, fun h => Generator.runningInOrder_congr g c _ rfl rfl (he h)⟩
    · dsimp only
      have : ¬ word16 a.a1 a.a2 ≤ word16 a.a3 a.a4 := fun h => hn (Or.inr (Or.inl h))
      rw [BitVec.not_le, BitVec.lt_def] at this; exact this
    · dsimp only
      have : a.a5 ≠ 0 := fun h => hn (Or.inr (Or.inr h))
      by_contra h0
      exact this (BitVec.eq_of_toNat_eq (by simp; omega))

/-- One channel and its generator replaced. -/
theorem State.outputsInOrder_set (s : State) (hs : s.outputsInOrder) (i : Fin 16) (d : Channel) (g : Generator)
    (h : g.inOrderFor d) (t : State) (h1 : t.level.channels = s.level.channels.set i d)
    (h2 : t.generators = s.generators.set i g) : t.outputsInOrder := by
  intro j
  rw [h1, h2]
  by_cases hij : i = j
  · subst hij
    simp only [getElem_set_self]; exact h
  · have e1 : (s.level.channels.set i d)[j] = s.level.channels[j] := by
      simp only [Fin.getElem_fin]; rw [Vector.getElem_set_ne]; intro h; exact hij (Fin.ext h)
    have e2 : (s.generators.set i g)[j] = s.generators[j] := by
      simp only [Fin.getElem_fin]; rw [Vector.getElem_set_ne]; intro h; exact hij (Fin.ext h)
    rw [e1, e2]; exact hs j

/-- Channels and generators left alone. -/
theorem State.outputsInOrder_congr (s t : State) (hs : s.outputsInOrder) (h1 : t.level.channels = s.level.channels)
    (h2 : t.generators = s.generators) : t.outputsInOrder := by
  intro j; rw [h1, h2]; exact hs j

/-! ## Every request -/

/-- A request keeps the Map Store in order. -/
theorem RequestCode.run_mapInOrder (c : RequestCode) (q : Req) (s : State) (h : s.map.inOrder) :
    (c.run q s).1.map.inOrder := by
  cases c
  case writeEntry =>
    simp only [RequestCode.run, reqWriteEntry]
    split
    · exact h
    · next n hn =>
      obtain ⟨a, b1, b2⟩ := MapStore.nameBank_open hn
      have ho := MapStore.op_none_of_open h a b1 b2
      split; · exact h
      split; · exact h
      split; · exact h
      refine MapStore.setBank_inOrder h a ho _ (Bank.inOrder_editing _ ?_) ⟨by simp, by simp⟩
      have hb : ((s.map.bank n).entries.length ≤ 128) := ((MapStore.inOrder_iff _).mp h).1 n |>.1
      rename_i h1 h2 _ _ _
      unfold Bank.count bankRoom at *
      split
      · simp; omega
      · simp; omega
  case truncateBank =>
    simp only [RequestCode.run, reqTruncateBank]
    split
    · exact h
    · next n hn =>
      obtain ⟨a, b1, b2⟩ := MapStore.nameBank_open hn
      have ho := MapStore.op_none_of_open h a b1 b2
      split; · exact h
      have hb : ((s.map.bank n).entries.length ≤ 128) := ((MapStore.inOrder_iff _).mp h).1 n |>.1
      refine MapStore.setBank_inOrder h a ho _ ?_ ?_
      · unfold truncatedState
        split
        · next h0 => exact ⟨by simp [Bank.count, h0], fun _ => by simp [h0], fun h => by simp at h⟩
        · exact Bank.inOrder_editing _ (by simp; omega)
      · unfold truncatedState; split <;> simp
  case clearBank =>
    simp only [RequestCode.run, reqClearBank]
    split
    · exact h
    · next n hn =>
      obtain ⟨a, b1, b2⟩ := MapStore.nameBank_open hn
      exact MapStore.setBank_inOrder h a (MapStore.op_none_of_open h a b1 b2) _ Bank.inOrder_emptied ⟨by simp [Bank.emptied], by simp [Bank.emptied]⟩
  case copyBank =>
    simp only [RequestCode.run, reqCopyBank]
    split
    · exact h
    · next n hn =>
      obtain ⟨a, b1, b2⟩ := MapStore.nameBank_open hn
      have hbk : ∀ k b o, ({ s.map.setBank n b with op := o } : MapStore).bank k = if k = n then b else s.map.bank k := by
        intro k b o; rw [← MapStore.bank_setBank]; cases k <;> rfl
      have hac : ∀ b o, ({ s.map.setBank n b with op := o } : MapStore).active = s.map.active := fun b o => MapStore.active_setBank _ _ _
      rw [MapStore.inOrder_iff] at h ⊢
      refine ⟨?_, ?_, ?_⟩
      · intro k; dsimp only; rw [hbk]; split
        · exact ⟨by simp [Bank.count], by simp, by simp⟩
        · exact h.1 k
      · unfold MapStore.unitInOrder; dsimp only
        refine ⟨by rw [hac]; exact BankName.eq_other_of_ne a, by rw [hbk, if_pos rfl], rfl, Nat.zero_le _, by rw [hbk, if_pos rfl]; simp⟩
      · have e1 := fun b o => (hbk (s.map.setBank n b).active b o).trans (if_neg (by rw [MapStore.active_setBank]; exact Ne.symm a))
        dsimp only; rw [e1, MapStore.active_setBank]; exact h.2.2
  case commitBank =>
    simp only [RequestCode.run, reqCommitBank]
    split
    · exact h
    · next n hn =>
      obtain ⟨a, b1, b2⟩ := MapStore.nameBank_open hn
      split; · exact h
      have hbk : ∀ k b o, ({ s.map.setBank n b with op := o } : MapStore).bank k = if k = n then b else s.map.bank k := by
        intro k b o; rw [← MapStore.bank_setBank]; cases k <;> rfl
      have hac : ∀ b o, ({ s.map.setBank n b with op := o } : MapStore).active = s.map.active := fun b o => MapStore.active_setBank _ _ _
      rw [MapStore.inOrder_iff] at h ⊢
      refine ⟨?_, ?_, ?_⟩
      · intro k; dsimp only; rw [hbk]; split
        · exact ⟨(h.1 n).1, by simp, by simp⟩
        · exact h.1 k
      · unfold MapStore.unitInOrder; dsimp only
        refine ⟨by rw [hac]; exact BankName.eq_other_of_ne a, by rw [hbk, if_pos rfl], Nat.zero_le _, by simp, by simp⟩
      · have e1 := fun b o => (hbk (s.map.setBank n b).active b o).trans (if_neg (by rw [MapStore.active_setBank]; exact Ne.symm a))
        dsimp only; rw [e1, MapStore.active_setBank]; exact h.2.2
  case readIdentity =>
    have key : (RequestCode.run .readIdentity q s).1.map = s.map := by
      rfl
    rw [key]; exact h
  case readStatus =>
    have key : (RequestCode.run .readStatus q s).1.map = s.map := by
      simp only [RequestCode.run]
      unfold reqReadStatus
      repeat' (first | split | rfl)
    rw [key]; exact h
  case setNode =>
    have key : (RequestCode.run .setNode q s).1.map = s.map := by
      simp only [RequestCode.run]
      unfold reqSetNode
      split <;> rfl
    rw [key]; exact h
  case readNode =>
    have key : (RequestCode.run .readNode q s).1.map = s.map := by
      simp only [RequestCode.run]
      unfold reqReadNode
      split <;> rfl
    rw [key]; exact h
  case readEntry =>
    have key : (RequestCode.run .readEntry q s).1.map = s.map := by
      simp only [RequestCode.run]
      unfold reqReadEntry
      repeat' (first | split | rfl)
    rw [key]; exact h
  case writeChannel =>
    have key : (RequestCode.run .writeChannel q s).1.map = s.map := by
      simp only [RequestCode.run]
      unfold reqWriteChannel reqWriteOutput reqWriteGroup
      repeat' (first | split | rfl)
    rw [key]; exact h
  case readChannel =>
    have key : (RequestCode.run .readChannel q s).1.map = s.map := by
      simp only [RequestCode.run]
      unfold reqReadChannel
      repeat' (first | split | rfl)
    rw [key]; exact h
  case writeCurve =>
    have key : (RequestCode.run .writeCurve q s).1.map = s.map := by
      simp only [RequestCode.run]
      unfold reqWriteCurve
      repeat' (first | split | rfl)
    rw [key]; exact h
  case readCurve =>
    have key : (RequestCode.run .readCurve q s).1.map = s.map := by
      simp only [RequestCode.run]
      unfold reqReadCurve
      repeat' (first | split | rfl)
    rw [key]; exact h
  case writeSense =>
    have key : (RequestCode.run .writeSense q s).1.map = s.map := by
      simp only [RequestCode.run]
      unfold reqWriteSense
      dsimp only
      split <;> rfl
    rw [key]; exact h
  case readSense =>
    have key : (RequestCode.run .readSense q s).1.map = s.map := by
      simp only [RequestCode.run]
      unfold reqReadSense
      repeat' (first | split | rfl)
    rw [key]; exact h
  case setOverride =>
    have key : (RequestCode.run .setOverride q s).1.map = s.map := by
      simp only [RequestCode.run]
      unfold reqSetOverride
      repeat' (first | split | rfl)
    rw [key]; exact h
  case freeze =>
    have key : (RequestCode.run .freeze q s).1.map = s.map := by
      rfl
    rw [key]; exact h
  case thaw =>
    have key : (RequestCode.run .thaw q s).1.map = s.map := by
      rfl
    rw [key]; exact h
  case clearInterlock =>
    have key : (RequestCode.run .clearInterlock q s).1.map = s.map := by
      simp only [RequestCode.run]
      unfold reqClearInterlock
      repeat' (first | split | rfl)
    rw [key]; exact h
  case fetchEvent =>
    have key : (RequestCode.run .fetchEvent q s).1.map = s.map := by
      simp only [RequestCode.run]
      unfold reqFetchEvent
      repeat' (first | split | rfl)
    rw [key]; exact h
  case readFlags =>
    have key : (RequestCode.run .readFlags q s).1.map = s.map := by
      rfl
    rw [key]; exact h
  case clearFlags =>
    have key : (RequestCode.run .clearFlags q s).1.map = s.map := by
      rfl
    rw [key]; exact h
  case setReportMask =>
    have key : (RequestCode.run .setReportMask q s).1.map = s.map := by
      rfl
    rw [key]; exact h
  case readCounters =>
    have key : (RequestCode.run .readCounters q s).1.map = s.map := by
      simp only [RequestCode.run]
      unfold reqReadCounters
      repeat' (first | split | rfl)
    rw [key]; exact h
  case resetNode =>
    have key : (RequestCode.run .resetNode q s).1.map = s.map := by
      simp only [RequestCode.run]
      unfold reqResetNode
      repeat' (first | split | rfl)
    rw [key]; exact h

/-- A request keeps the channels and generators in order. -/
theorem RequestCode.run_outputsInOrder (c : RequestCode) (q : Req) (s : State) (h : s.outputsInOrder) :
    (c.run q s).1.outputsInOrder := by
  cases c
  case writeChannel =>
    simp only [RequestCode.run, reqWriteChannel]
    split
    · exact h
    · next ch hch =>
      split
      · unfold reqWriteOutput
        split
        · exact h
        · next d g hw =>
          exact State.outputsInOrder_set s h ch d g (writeOutput_inOrder _ _ _ (h ch) _ _ hw) _ rfl rfl
      · unfold reqWriteGroup
        split
        · exact h
        · next d hw => exact State.outputsInOrder_set s h ch d s.generators[ch] (Channel.writeLevel_inOrder _ _ _ _ (h ch) hw) _ rfl (set_getElem_self _ _).symm
      · unfold reqWriteGroup
        split
        · exact h
        · next d hw => exact State.outputsInOrder_set s h ch d s.generators[ch] (Channel.writeTrigger_inOrder _ _ _ _ (h ch) hw) _ rfl (set_getElem_self _ _).symm
      · exact h
  all_goals
    simp only [RequestCode.run]
  case readIdentity => exact h
  case readStatus => unfold reqReadStatus; repeat' (first | split | exact h)
  case setNode => unfold reqSetNode; split <;> exact h
  case readNode => unfold reqReadNode; split <;> exact h
  case writeEntry => unfold reqWriteEntry; repeat' (first | exact h | split | dsimp only)
  case readEntry => unfold reqReadEntry; repeat' (first | exact h | split)
  case truncateBank => unfold reqTruncateBank; repeat' (first | exact h | split | dsimp only)
  case clearBank => unfold reqClearBank; repeat' (first | exact h | split)
  case copyBank => unfold reqCopyBank; repeat' (first | exact h | split)
  case commitBank => unfold reqCommitBank; repeat' (first | exact h | split | dsimp only)
  case readChannel => unfold reqReadChannel; repeat' (first | exact h | split)
  case writeCurve => unfold reqWriteCurve; repeat' (first | exact h | split)
  case readCurve => unfold reqReadCurve; repeat' (first | exact h | split)
  case writeSense => unfold reqWriteSense; dsimp only; split <;> exact h
  case readSense => unfold reqReadSense; repeat' (first | exact h | split)
  case setOverride => unfold reqSetOverride; repeat' (first | exact h | split)
  case freeze => exact h
  case thaw => exact h
  case clearInterlock => unfold reqClearInterlock; repeat' (first | exact h | split)
  case fetchEvent => unfold reqFetchEvent; repeat' (first | exact h | split)
  case readFlags => exact h
  case clearFlags => exact h
  case setReportMask => exact h
  case readCounters => unfold reqReadCounters; repeat' (first | exact h | split)
  case resetNode => unfold reqResetNode; repeat' (first | exact h | split)

end Sys2Proof.Machine
end

