-- ==== Sys2Proof/Laws/Sense.lean ====
section
/-! SUPPORT. The stages of a base tick operation for one line, and the match over all lines. -/

namespace Sys2Proof.Machine

/-! ## One line -/

/-- A filtered edge is a change of the Filtered Level (R128). -/
theorem SenseLine.filter_edge (l : SenseLine) (x : Bool) :
    (l.filter x).2 = if (l.filter x).1.high = l.high then none else some (.to (l.filter x).1.high) := by
  unfold SenseLine.filter
  by_cases h1 : l.filterOn = true <;> by_cases h2 : x = l.high <;> by_cases h3 : l.run = 3 <;> simp [h1, h2, h3]

/-- What the filter leaves alone. -/
theorem SenseLine.filter_frame (l : SenseLine) (x : Bool) :
    (l.filter x).1.filterOn = l.filterOn ∧ (l.filter x).1.condition = l.condition
      ∧ (l.filter x).1.captureEnable = l.captureEnable ∧ (l.filter x).1.captureEdge = l.captureEdge
      ∧ (l.filter x).1.timestamp = l.timestamp ∧ (l.filter x).1.fresh = l.fresh
      ∧ (l.filter x).1.overrun = l.overrun := by
  unfold SenseLine.filter
  by_cases h1 : l.filterOn = true <;> by_cases h2 : x = l.high <;> by_cases h3 : l.run = 3 <;> simp [h1, h2, h3]

/-- What a capture leaves alone. -/
theorem SenseLine.capture_frame (l : SenseLine) (c : BitVec 15) (e : Option Edge) :
    (l.capture c e).1.high = l.high ∧ (l.capture c e).1.run = l.run
      ∧ (l.capture c e).1.filterOn = l.filterOn ∧ (l.capture c e).1.condition = l.condition
      ∧ (l.capture c e).1.captureEnable = l.captureEnable ∧ (l.capture c e).1.captureEdge = l.captureEdge := by
  unfold SenseLine.capture; split <;> simp

/-- The line after stages 2 and 3. -/
theorem SenseLine.tick_frame (l : SenseLine) (x : Bool) (c : BitVec 15) :
    (l.tick x c).1.high = (l.filter x).1.high ∧ (l.tick x c).1.run = (l.filter x).1.run
      ∧ (l.tick x c).1.filterOn = l.filterOn ∧ (l.tick x c).1.condition = l.condition
      ∧ (l.tick x c).1.captureEnable = l.captureEnable ∧ (l.tick x c).1.captureEdge = l.captureEdge
      ∧ (l.tick x c).2.1 = (l.filter x).2 := by
  obtain ⟨a, b, c', d, e, f⟩ := SenseLine.capture_frame (l.filter x).1 c (l.filter x).2
  obtain ⟨a2, b2, c2, d2, _⟩ := SenseLine.filter_frame l x
  exact ⟨a, b, c'.trans a2, d.trans b2, e.trans c2, f.trans d2, rfl⟩

/-- A line whose Filtered Level comes to `high` captures (R136). -/
def SenseLine.capturesAt (l : SenseLine) (high : Bool) : Prop :=
  high ≠ l.high ∧ l.captureEnable = true
    ∧ (l.captureEdge = .both ∨ l.captureEdge = .rise ∧ high = true ∨ l.captureEdge = .fall ∧ high = false)

/-- When a line captures (R136). -/
theorem SenseLine.captures_iff (l : SenseLine) (x : Bool) :
    (l.filter x).1.captures (l.filter x).2 = true ↔ l.capturesAt (l.filter x).1.high := by
  obtain ⟨_, _, c2, d2, _⟩ := SenseLine.filter_frame l x
  rw [SenseLine.filter_edge]
  unfold SenseLine.capturesAt
  generalize (l.filter x).1 = m at *
  cases hm : m.high <;> cases hl : l.high <;> cases he : l.captureEdge <;> simp [SenseLine.captures, c2, d2, he, CaptureEdge.admits, Edge.to]

/-- The capture record after a base tick (R136). -/
theorem SenseLine.tick_record (l : SenseLine) (x : Bool) (c : BitVec 15) :
    (l.capturesAt (l.tick x c).1.high →
        (l.tick x c).1.timestamp = c ∧ (l.tick x c).1.fresh = true ∧ (l.tick x c).1.overrun = l.fresh)
      ∧ (¬ l.capturesAt (l.tick x c).1.high →
        (l.tick x c).1.timestamp = l.timestamp ∧ (l.tick x c).1.fresh = l.fresh
          ∧ (l.tick x c).1.overrun = l.overrun)
      ∧ ∀ ts, (l.tick x c).2.2 = some ts ↔
          ts = l.timestamp ∧ l.fresh = true ∧ l.capturesAt (l.tick x c).1.high := by
  rw [(SenseLine.tick_frame l x c).1, ← SenseLine.captures_iff]
  obtain ⟨_, _, _, _, e, f, g⟩ := SenseLine.filter_frame l x
  unfold SenseLine.tick SenseLine.capture
  dsimp only
  split
  · next h =>
    refine ⟨fun _ => ⟨rfl, rfl, f⟩, fun h' => absurd h h', fun ts => ?_⟩
    rw [f, e]
    by_cases hf : l.fresh = true
    · rw [if_pos hf]; constructor
      · intro hh; injection hh with hh; exact ⟨hh.symm, hf, h⟩
      · rintro ⟨rfl, _⟩; rfl
    · rw [if_neg hf]; constructor
      · intro hh; cases hh
      · rintro ⟨_, hh, _⟩; exact absurd hh hf
  · next h =>
    refine ⟨fun h' => absurd h' h, fun _ => ⟨e, f, g⟩, fun ts => ?_⟩
    constructor
    · intro hh; cases hh
    · rintro ⟨_, _, hh⟩; exact absurd hh h

/-! ## All lines -/

/-- A line after the base tick operation. -/
theorem SenseUnit.lines_baseTick (u : SenseUnit) (sns : Byte) (c : BitVec 15) (i : Fin 8) :
    (u.baseTick sns c).lines[i] = (u.lines[i].tick (sns.getLsbD i.val) c).1 := by
  simp [SenseUnit.baseTick, SenseUnit.matched, SenseUnit.sampled, SenseUnit.ticked]

/-- A line with a property. -/
theorem any_toList_iff {n : Nat} (v : Vector SenseLine n) (p : SenseLine → Bool) :
    v.toList.any p = true ↔ ∃ i : Fin n, p v[i] = true := by
  rw [List.any_eq_true]
  constructor
  · rintro ⟨x, hx, hp⟩
    rw [Vector.mem_toList_iff, Vector.mem_iff_getElem] at hx
    obtain ⟨i, hi, rfl⟩ := hx
    exact ⟨⟨i, hi⟩, hp⟩
  · rintro ⟨i, hp⟩
    exact ⟨v[i], by simp, hp⟩

/-- Every line with a property. -/
theorem all_toList_iff {n : Nat} (v : Vector SenseLine n) (p : SenseLine → Bool) :
    v.toList.all p = true ↔ ∀ i : Fin n, p v[i] = true := by
  rw [List.all_eq_true]
  constructor
  · intro h i; exact h _ (by simp)
  · intro h x hx
    rw [Vector.mem_toList_iff, Vector.mem_iff_getElem] at hx
    obtain ⟨i, hi, rfl⟩ := hx
    exact h ⟨i, hi⟩

/-- An edge condition fires on some line (R132). -/
theorem SenseUnit.anyEdgeFires_iff (u : SenseUnit) (sns : Byte) (c : BitVec 15) :
    (List.zipWith SenseLine.edgeFires (u.sampled sns c).lines.toList
        ((u.ticked sns c).toList.map fun t => t.2.1)).any id = true ↔
      ∃ i : Fin 8, SenseLine.edgeFires (u.lines[i].tick (sns.getLsbD i.val) c).1
        (u.lines[i].tick (sns.getLsbD i.val) c).2.1 = true := by
  simp only [SenseUnit.sampled, SenseUnit.ticked, Vector.toList_ofFn, List.map_ofFn, List.any_eq_true, id]
  constructor
  · rintro ⟨x, hx, rfl⟩
    rw [List.mem_iff_getElem] at hx
    obtain ⟨n, hn, hx⟩ := hx
    simp at hn
    refine ⟨⟨n, hn⟩, ?_⟩
    simpa only [List.getElem_zipWith, List.getElem_ofFn, Fin.getElem_fin, Vector.getElem_ofFn, Function.comp] using hx
  · rintro ⟨i, hp⟩
    refine ⟨_, ?_, hp⟩
    rw [List.mem_iff_getElem]
    exact ⟨i.val, by simp, by simp only [List.getElem_zipWith, List.getElem_ofFn, Fin.getElem_fin, Vector.getElem_ofFn, Function.comp]⟩

/-- A level condition that holds (section 6.2). -/
theorem SenseLine.levelHolds_iff (m : SenseLine) :
    m.levelHolds = true ↔ m.condition = .low ∧ m.high = false ∨ m.condition = .high ∧ m.high = true := by
  unfold SenseLine.levelHolds; cases hc : m.condition <;> cases hm : m.high <;> simp

/-- The conditions that AND mode takes (R133). -/
theorem SenseLine.andHolds_isSome (m : SenseLine) :
    m.andHolds.isSome = true ↔ m.condition ∈ [Condition.low, .high, .fall, .rise] := by
  unfold SenseLine.andHolds; cases hc : m.condition <;> simp

/-- A line that does not stand against the AND (R133). -/
theorem SenseLine.andHolds_ne_false (m : SenseLine) : (m.andHolds != some false) = true ↔
    (m.condition ∈ [Condition.low, .fall] → m.high = false)
      ∧ (m.condition ∈ [Condition.high, .rise] → m.high = true) := by
  unfold SenseLine.andHolds; cases hc : m.condition <;> cases hm : m.high <;> simp

/-- The Match State (R132, R133). -/
theorem matchStateOf_iff (mode : MatchMode) (v : Vector SenseLine 8) : matchStateOf mode v.toList = true ↔
    (match mode with
     | .or => ∃ i : Fin 8, v[i].condition = .low ∧ v[i].high = false
         ∨ v[i].condition = .high ∧ v[i].high = true
     | .and =>
       (∃ i : Fin 8, v[i].condition ∈ [Condition.low, .high, .fall, .rise])
         ∧ ∀ i : Fin 8, (v[i].condition ∈ [Condition.low, .fall] → v[i].high = false)
           ∧ (v[i].condition ∈ [Condition.high, .rise] → v[i].high = true)) := by
  cases mode
  · simp only [matchStateOf, any_toList_iff, SenseLine.levelHolds_iff]
  · simp only [matchStateOf, Bool.and_eq_true, any_toList_iff, all_toList_iff, SenseLine.andHolds_isSome, SenseLine.andHolds_ne_false]

/-- Eight bits packed into a byte, bit 0 last. -/
theorem levelsByte_bits : ∀ a0 a1 a2 a3 a4 a5 a6 a7 : Bool,
    let v := (((((((((0 : Byte) <<< 1 ||| flagByte a7) <<< 1 ||| flagByte a6) <<< 1 ||| flagByte a5) <<< 1
      ||| flagByte a4) <<< 1 ||| flagByte a3) <<< 1 ||| flagByte a2) <<< 1 ||| flagByte a1) <<< 1
      ||| flagByte a0)
    v.getLsbD 0 = a0 ∧ v.getLsbD 1 = a1 ∧ v.getLsbD 2 = a2 ∧ v.getLsbD 3 = a3 ∧ v.getLsbD 4 = a4
      ∧ v.getLsbD 5 = a5 ∧ v.getLsbD 6 = a6 ∧ v.getLsbD 7 = a7 := by
  decide

/-- Bit n of the levels byte is the Filtered Level of line n (R134). -/
theorem SenseUnit.levels_getLsbD (u : SenseUnit) (n : Fin 8) : u.levels.getLsbD n.val = u.lines[n].high := by
  have : u.lines.toList = [u.lines[(0:Fin 8)], u.lines[(1:Fin 8)], u.lines[(2:Fin 8)], u.lines[(3:Fin 8)], u.lines[(4:Fin 8)], u.lines[(5:Fin 8)], u.lines[(6:Fin 8)], u.lines[(7:Fin 8)]] := by
    apply List.ext_getElem
    · simp
    · intro i h1 h2; simp at h1; interval_cases i <;> simp
  unfold SenseUnit.levels
  rw [this]
  simp only [List.foldr]
  obtain ⟨h0, h1, h2, h3, h4, h5, h6, h7⟩ := levelsByte_bits u.lines[(0:Fin 8)].high u.lines[(1:Fin 8)].high u.lines[(2:Fin 8)].high u.lines[(3:Fin 8)].high u.lines[(4:Fin 8)].high u.lines[(5:Fin 8)].high u.lines[(6:Fin 8)].high u.lines[(7:Fin 8)].high
  obtain ⟨n, hn⟩ := n
  interval_cases n
  exacts [h0, h1, h2, h3, h4, h5, h6, h7]

end Sys2Proof.Machine
end

