-- ==== Sys2Proof/Laws/StepTick.lean ====
section
/-! SUPPORT. The stages of the step tick, each said once. -/

namespace Sys2Proof.Machine

/-- Stage 2 (R92, R93). -/
theorem State.stepFallback_eq (s : State) : s.stepFallback =
    (let cause := s.link.fallbackCause || s.link.staleCause
     { s with
       level := { s.level with
         fallback := cause,
         channels := if cause && !s.level.fallback then
             Vector.ofFn fun i => s.level.channels[i].applyPolicy s.agent.params.lossPolicy
           else s.level.channels },
       agent := if cause = s.level.fallback then s.agent
         else (s.raise (.fallback cause s.link.fallbackCause s.link.staleCause)).agent }) := by
  unfold State.stepFallback
  dsimp only
  rcases s with ⟨link, map, slot, time, ⟨ch, cu, pk, bl, tf, fr, fz, fb, bf⟩, gen, sen, ag, cho, pen⟩
  cases hc : (link.fallbackCause || link.staleCause) <;> cases fb <;> simp [State.raise]

/-- A channel after stage 1 (R91). -/
def State.consumedChannel (s : State) (i : Fin 16) : Channel :=
  match s.slot.pendingRecords with
  | some r =>
    if !(s.link.fallbackCause || s.link.staleCause) && !s.level.freezeRequest && r[i].fresh then
      { s.level.channels[i] with
        raw := r[i].raw, target := evalCurve s.level.curves s.level.channels[i].curve r[i].raw,
        targetSource := .tap }
    else s.level.channels[i]
  | none => s.level.channels[i]

/-- Stages 0 and 1 (R90, R91). -/
theorem State.stepConsume_eq (s : State) : s.stepInputs.stepConsume =
    { s with
      slot := s.slot.takePending,
      level := { s.level with
        frozen := s.level.freezeRequest, channels := Vector.ofFn (State.consumedChannel s) } } := by
  unfold State.stepConsume
  have hp : s.stepInputs.slot.pendingRecords = s.slot.pendingRecords := rfl
  rw [hp]
  unfold State.consumedChannel
  have hv : (Vector.ofFn fun i => s.level.channels[i]) = s.level.channels := by ext; simp
  cases hpp : s.slot.pendingRecords with
  | none =>
    have : s.slot.takePending = s.slot := by
      rw [SlotEngine.takePending_eq]
      unfold SlotEngine.pendingRecords at hpp
      split at hpp
      · cases hpp
      · split at hpp
        · cases hpp
        · simp [*]
    rw [this, hv]; rfl
  | some r =>
    have hl : s.stepInputs.tapsLive = (!(s.link.fallbackCause || s.link.staleCause) && !s.level.freezeRequest) := by
      unfold State.tapsLive State.stepInputs; simp
    dsimp only
    rw [hl]
    cases (!(s.link.fallbackCause || s.link.staleCause) && !s.level.freezeRequest)
    · simp only [Bool.false_and, Bool.false_eq_true, if_false]; rw [hv]; rfl
    · simp only [Bool.true_and, if_true]; rfl

/-- Stages 3 and 4 for a channel (R94, R95). -/
theorem State.channels_stepTail (s : State) (i : Fin 16) :
    s.stepFade.stepOverrides.stepGenerators.level.channels[i]
      = s.level.channels[i].fade.settle s.level.parks[i] s.blackoutSource s.level.testFull := by
  simp [State.stepFade, State.stepOverrides, State.stepGenerators, State.blackoutSource]

/-- Stage 5 for a channel (R97). -/
theorem State.generators_stepTail (s : State) (i : Fin 16) :
    s.stepFade.stepOverrides.stepGenerators.generators[i]
      = s.generators[i].step (s.stepFade.stepOverrides.stepGenerators.level.channels[i]) := by
  simp [State.stepFade, State.stepOverrides, State.stepGenerators, State.blackoutSource]

/-- What stages 3 to 5 leave alone. -/
theorem State.stepTail_frame (s : State) : s.stepFade.stepOverrides.stepGenerators =
    { s with
      level := { s.level with
        channels := s.stepFade.stepOverrides.stepGenerators.level.channels,
        blackoutInForce := s.blackoutSource },
      generators := s.stepFade.stepOverrides.stepGenerators.generators } := by
  unfold State.stepFade State.stepOverrides State.stepGenerators; rfl

end Sys2Proof.Machine
end

