-- ==== Sys2Proof/Laws/Timebase.lean ====
section
/-! SUPPORT. The base tick and the step pattern. -/

namespace Sys2Proof.Machine

/-- The steps of 11 base ticks (R80). -/
theorem stepLength_eq : ∀ st : Fin 25,
    stepLength st = if st.val ∈ [3, 7, 11, 15, 19, 23] then 11 else 10 := by
  decide

/-- The step after a step of the cycle. -/
theorem step_succ_val : ∀ st : Fin 25, (st + 1).val = (st.val + 1) % 25 := by
  decide

/-- The capture clock advances by 1 and wraps (R79). -/
@[simp] theorem Timebase.captureClock_baseTick (t : Timebase) :
    t.baseTick.captureClock = t.captureClock + 1 := by
  unfold Timebase.baseTick; split <;> rfl

/-- A base tick keeps the timebase in order. -/
theorem Timebase.baseTick_inOrder (t : Timebase) (h : t.inOrder) : t.baseTick.inOrder := by
  obtain ⟨h1, h2⟩ := h
  unfold Timebase.baseTick
  split
  · refine ⟨?_, by simp⟩
    dsimp only; unfold stepLength; split <;> omega
  · next hn =>
    refine ⟨?_, ?_⟩
    · dsimp only; unfold Timebase.lastOfStep at hn; simp at hn; exact hn
    · intro ht; exact absurd (h2 ht).1 hn

/-- A base tick: what each block does, and the events it raises (R79, R127). -/
theorem State.baseTick_eq (s : State) (sns : Byte) : s.baseTick sns =
    { s with
      time := s.time.baseTick, link := s.link.countTimeout,
      sense := s.sense.baseTick sns s.time.baseTick.captureClock,
      agent := (s.sense.tickEvents sns s.time.baseTick.captureClock).foldl
        (fun agent e => agent.take e (s.link.frameClock.setWidth 16)) s.agent } := by
  have key : ∀ (es : List Event) (t : State), t.raiseAll es = { t with
      agent := es.foldl (fun agent e => agent.take e (t.link.frameClock.setWidth 16)) t.agent } := by
    intro es
    induction es with
    | nil => intro t; rfl
    | cons e es ih => intro t; exact ih (t.raise e)
  exact key _ _

end Sys2Proof.Machine
end

