-- ==== Sys2Proof/Tests/Slice0.lean ====
section
/-! SUPPORT. The model's own tests: an ill-formed command refused by each check, values the spec works out, and for
each statement with hypotheses states that meet them. Every test is about one step. -/

namespace Sys2Proof.Tests

open Sys2Proof.Machine

/-! ## Helpers -/

/-- The state after one command. -/
def after (c : Instr) (s : State) : State :=
  match exec c s with
  | .next t => t
  | .fault _ => s
  | .refused _ => s

/-- A node at position 5 in a link state, with a frame in progress. -/
def node (state : LinkState) (frame : Frame) : State :=
  { State.reset with link := { LinkFramer.powerOn with
      state := state, frame := frame, position := 5, delay := List.replicate 25 .idle } }

/-- A node whose Agent has just been handed a cell. -/
def handed : State := node .locked (.good 24 16)

/-- A request to position 5. -/
def ask (object : Byte) (index : BitVec 16) (args : Args) (count : Byte := 0) : Req :=
  ⟨5, 9, 0, object, index, args, count⟩

/-- A request without operands. -/
def bare : Req := ask 0 0 noArgs

/-- The status of the reply a command writes. -/
def replied (c : Instr) (s : State) : Option Byte := (after c s).link.cell[4]?

/-- A node with other contents of the Map Store. -/
def withMap (m : MapStore) : State := { handed with map := m }

/-- A node with other contents of the Level Engine. -/
def withLevel (l : LevelEngine) : State := { handed with level := l }

/-- A node with one channel replaced. -/
def withChannel (i : Fin 16) (c : Channel) : State := handed.setChannel i c

/-- A node with another Management Agent. -/
def withAgent (a : Agent) : State := { handed with agent := a }

/-- A node with another Sense Unit. -/
def withSense (u : SenseUnit) : State := { handed with sense := u }

/-- A node with another Link Framer in front of a header's eighth byte. -/
def beforeEighth (state : LinkState) (seven : List Byte) : State :=
  { State.reset with link := { LinkFramer.powerOn with
      state := state, frame := .header, header := seven, position := 5, delay := List.replicate 25 .idle } }

theorem addressed_of {s : State} {q : Req} (h : s.link = handed.link) (hq : q.destination = 5) :
    s.addressed q := by
  have e : s.link.position = 5 := by rw [h]; rfl
  refine ⟨⟨by rw [h]; rfl, ⟨16, by rw [h]; rfl⟩, ?_, ?_⟩, ?_⟩
  · rw [e]; decide
  · rw [e]; decide
  · rw [e]; exact hq

/-! ## Well-formed commands -/

theorem test_wellFormed_objects_refused :
    (Instr.writeChannelOutput (ask 1 0 noArgs)).wellFormed = false
      ∧ (Instr.writeChannelLevel (ask 0 0 noArgs)).wellFormed = false
      ∧ (Instr.writeChannelTrigger (ask 1 0 noArgs)).wellFormed = false
      ∧ (Instr.setOverrideBlackout (ask 1 0 noArgs)).wellFormed = false
      ∧ (Instr.setOverrideTestFull (ask 2 0 noArgs)).wellFormed = false
      ∧ (Instr.setOverridePark (ask 0 0 noArgs)).wellFormed = false
      ∧ (Instr.resetNodeOutputs (ask 1 0 noArgs)).wellFormed = false
      ∧ (Instr.resetNodeTables (ask 0 0 noArgs)).wellFormed = false
      ∧ (Instr.resetNodeEvents (ask 3 0 noArgs)).wellFormed = false
      ∧ (Instr.resetNodeScopeNode (ask 2 0 noArgs)).wellFormed = false := by decide

theorem test_wellFormed_indices_refused :
    (Instr.writeSenseGlobal (ask 0 7 noArgs)).wellFormed = false
      ∧ (Instr.writeSenseLine (ask 0 8 noArgs)).wellFormed = false := by decide

theorem test_wellFormed_accepted :
    (Instr.writeChannelTrigger (ask 2 0 noArgs)).wellFormed = true
      ∧ (Instr.resetNodeScopeNode (ask 3 0 noArgs)).wellFormed = true
      ∧ (Instr.writeSenseGlobal (ask 0 8 noArgs)).wellFormed = true
      ∧ (Instr.writeSenseLine (ask 0 9 noArgs)).wellFormed = true
      ∧ (Instr.readStatus (ask 9 9 noArgs)).wellFormed = true := by decide

/-! ## Values the spec works out -/

theorem test_crc8_of_zero : crc8 [0x00] = 0xF3 := by decide

theorem test_statusByte_after_powerOn : State.reset.statusByte = 0x80 := by decide

theorem test_curve_of_the_example :
    evalPoints ((defaultPoints.set 8 20000).set 9 26000) 32784 = 20023
      ∧ evalPoints ((defaultPoints.set 8 20000).set 9 10000) 32784 = 19961
      ∧ evalPoints defaultPoints 8224 = 8224 := by decide

theorem test_fade_of_the_example :
    fadeToward 12000 20023 2500 = 14500 ∧ fadeToward 17000 8224 2500 = 14500
      ∧ fadeToward 9500 8224 2500 = 8224 := by decide

theorem test_duty_of_the_example :
    dutyOf 40000 16 = 9 ∧ dutyOf 40000 20 = 12 ∧ dutyOf 65535 4096 = 4096 ∧ dutyOf 15 4096 = 0 := by decide

theorem test_flashInterval_of_the_example :
    flashInterval 32768 = 65 ∧ flashInterval 65535 = 2 ∧ flashLength 65535 4 = 1 := by decide

theorem test_overrides_of_the_example :
    let c : Channel := { Channel.default with enabled := true, current := 30000 }
    c.demand ⟨false, 0⟩ true true = 0
      ∧ { c with exempt := true }.demand ⟨false, 0⟩ true true = 65535
      ∧ c.demand ⟨true, 12000⟩ true true = 12000
      ∧ { c with enabled := false, exempt := true }.demand ⟨true, 12000⟩ true true = 0 := by decide

/-! ## One step of each kind -/

theorem test_step_takes_the_front :
    step { State.reset with pending := [.symbolSend, .stepTick] }
      = .next { State.reset with pending := [.stepTick] } := rfl

theorem test_powerOn_takes_the_lines :
    ((after (.powerOn 0x10) handed).sense.lines[4]).high = true ∧ (after (.powerOn 0) handed).link.position = 0 := by
  decide

theorem test_resetNRelease_clears_the_position : (after (.resetNRelease 0) handed).link.position = 0 := by decide

theorem test_marker_leaves_down :
    (after (.frameStartMarkerArrival 0) State.reset).link.state = .hunt
      ∧ (after (.frameStartMarkerArrival 0) State.reset).link.timeout = some 32 := by decide

set_option maxRecDepth 16384 in
theorem test_header_in_hunt :
    (after (.headerEighthByteArrival (crc8 [0x10, 0, 3, 0, 0, 0, 16]))
        (beforeEighth .hunt [0x10, 0, 3, 0, 0, 0, 16])).link.state = .verify
      ∧ (after (.headerEighthByteArrival (crc8 [0x10, 0, 3, 0, 0, 0, 16]))
        (beforeEighth .hunt [0x10, 0, 3, 0, 0, 0, 16])).link.position = 1 := by decide

theorem test_dataByte_between_frames_is_sent_as_idle :
    (after (.dataByteArrival 7) (node .locked .between)).link.delay[25]? = some .idle := by decide

set_option maxRecDepth 16384 in
theorem test_cell_carries_identity :
    let cell := requestBytes 0x01 bare
    let s := node .locked (.good 23 16)
    let t := after (.cellLastByteArrival (cell.getD 15 0)) { s with link := { s.link with cell := cell.take 15 } }
    t.link.cell.take 13 = [5, 2, 1, 9, 0, 0, 0, 0, 0x5C, 0x31, 0x06, 0x48, 1] := by decide

theorem test_slot_tap_of_the_example :
    let b : Buffer := { Buffer.powerOn with state := .filling }
    (b.tap 3 .byte 200).records[3] = ⟨51400, true⟩ ∧ ((b.tap 5 .high 128).tap 5 .low 16).records[5] = ⟨32784, true⟩ := by
  decide

theorem test_capture_insert_of_the_example :
    let s := withSense (handed.sense.setLine 3 { SenseLine.atReset false with fresh := true, timestamp := 1007 })
    (s.insertByte (.captureHi 3), s.insertByte (.captureLo 3)) = (3, 239)
      ∧ ((s.afterInsert (.captureLo 3)).sense.lines[3]).fresh = false := by decide

theorem test_frame_end_poisons_a_wrong_check :
    let s := node .locked (.good 41 16)
    (after (.frameCheckSecondByteArrival 0 0) s).link.frameCheckErrors = 1
      ∧ (after (.frameCheckSecondByteArrival 0 0) s).link.frameClock = 0 := by decide

theorem test_abort_truncates : (after (.abortMarkerArrival 0) handed).link.truncatedFrames = 1 := by decide

theorem test_idle_truncates_as_abort :
    (after (.idleArrival 0) handed).link.delay[25]? = some .abort := by decide

theorem test_symbolSend : (after .symbolSend handed).link.delay.length = 24 := by decide

theorem test_timeout_takes_the_link_down :
    let s : State := { handed with link := { handed.link with timeout := some 0 } }
    (after (.frameTimeoutExpiry 0) s).link.state = .down
      ∧ (after .symbolSend (after (.frameTimeoutExpiry 0) s)).link.linkOut = .abort := by decide

/-- Line 3 in the spec's example of a bouncing contact, one sample before its edge. -/
def bouncing : State :=
  { withSense (handed.sense.setLine 3 { SenseLine.atReset false with run := 3, captureEnable := true }) with
    time := { Timebase.powerOn with captureClock := 1006 } }

theorem test_baseTick_captures_the_example :
    ((after (.baseTick 0x08) bouncing).sense.lines[3]).high = true
      ∧ ((after (.baseTick 0x08) bouncing).sense.lines[3]).timestamp = 1007 := by decide

/-- Line 4 of the interlock sequence of spec/10, one sample before its edge. -/
def doorOpens : State :=
  withSense { handed.sense.setLine 4 { SenseLine.atReset false with run := 3, condition := .high } with
    armed := true, matchCount := 6 }

theorem test_baseTick_trips_the_interlock :
    (after (.baseTick 0x10) doorOpens).sense.matchCount = 7
      ∧ (after (.baseTick 0x10) doorOpens).statusByte = 0x90
      ∧ (after (.baseTick 0x10) doorOpens).agent.queue.map (fun r => (r.kind, r.detail))
        = [(.nodeStart, 0), (.senseMatch, 0x10), (.interlock, 1)] := by decide

theorem test_stepTick_enters_fallback :
    let s : State := { State.reset with time := { Timebase.powerOn with ticks := 9 } }
    (after .stepTick s).statusByte = 0xC0 ∧ (after .stepTick s).agent.queue.length = 2 := by decide

/-- Channel 9 of the spec's example, at time 13. -/
def dimRunning : Generator :=
  { Generator.enabledAt { Channel.default with period := 16, phase := 6 } with
    counter := 15, pendingDuty := some 40000 }

/-- A node whose channel 9 is enabled in DIM with Period 16. -/
def dimNode (g : Generator) : State :=
  (withChannel 9 { Channel.default with enabled := true, period := 16, phase := 6 }).setGenerator 9 g

theorem test_pwmClock_ends_the_period :
    ((after (.pwmClock 9) (dimNode dimRunning)).generators[9]).activeDuty = 9
      ∧ ((after (.pwmClock 9) (dimNode dimRunning)).generators[9]).lineActive = true := by decide

theorem test_periodEnd_as_the_clock :
    (after (.periodEnd 9) (dimNode dimRunning)).generators[9]
      = (after (.pwmClock 9) (dimNode dimRunning)).generators[9] := by decide

theorem test_dimDutyEnd :
    ((after (.dimDutyEnd 9) (dimNode { dimRunning with counter := 0, activeDuty := 9, lineActive := true })).generators[9])
      = { dimRunning with counter := 9, activeDuty := 9, lineActive := false } := by decide

/-- Bank A of the spec's example of editing a live map, active and READY. -/
def liveBank : Bank := ⟨[⟨10, .tap 0 .high⟩, ⟨11, .tap 0 .low⟩, ⟨12, .insert .nodeStatus⟩], .ready⟩

/-- The Map Store with that bank active. -/
def liveMap : MapStore := { MapStore.powerOn with bankA := liveBank }

theorem test_copy_of_the_example :
    let copying := (after (.copyBank (ask 1 0 noArgs)) (withMap liveMap))
    copying.map.bankB.state = .copying ∧ (after .copyEntryCopied copying).map.bankB.count = 1
      ∧ (after (.copyComplete .whole) copying).map.bankB = ⟨liveBank.entries, .editing⟩ := by decide

/-- A bank under COMMIT whose last entry breaks the slot order. -/
def misordered : MapStore :=
  { liveMap with
    bankB := ⟨[⟨7, .tap 0 .byte⟩, ⟨3, .tap 1 .byte⟩], .checking⟩, op := some ⟨.commit, .b, 0, none⟩ }

theorem test_commit_finds_the_slot_order :
    (after .commitEntryExamined (withMap misordered)).map.op = some ⟨.commit, .b, 1, none⟩
      ∧ (after (.commitComplete .whole) (withMap misordered)).map.bankB.state = .editing
      ∧ (after (.commitComplete .whole) (withMap misordered)).agent.queue[1]?
        = some ⟨.tableOpDone, .bank .b, 0, 0xA001⟩ := by decide

theorem test_completion_in_two_parts :
    let idle := after (.commitComplete .unitIdle) (withMap misordered)
    let placed := after (.commitComplete .recordPlaced) idle
    (idle.map.op = none ∧ idle.map.owed = some (.tableOpDone .b .commit (some .slotOrder) 1)
        ∧ idle.agent.queue.length = 1)
      ∧ placed.map.owed = none ∧ placed.agent.queue[1]? = some ⟨.tableOpDone, .bank .b, 0, 0xA001⟩ := by decide

theorem test_statusByte_between_the_two_parts :
    let fetched : State := { withMap misordered with agent := { Agent.powerOn with queue := [] } }
    (after (.commitComplete .unitIdle) fetched).statusByte = 0x00
      ∧ (after (.commitComplete .recordPlaced) (after (.commitComplete .unitIdle) fetched)).statusByte = 0x80 := by
  decide

theorem test_marker_cuts_the_third_header_short :
    let s : State := { node .locked .header with link := { (node .locked .header).link with badHeaders := 2 } }
    let t := after (.frameStartMarkerArrival 0) s
    t.link.state = .hunt ∧ t.link.headerErrors = 1 ∧ t.link.frame = .header
      ∧ t.agent.queue[1]? = some ⟨.linkState, .none, 0, 0x0301⟩ := by decide

theorem test_boundary_swaps :
    let ready : MapStore := { MapStore.powerOn with bankB := liveBank }
    ready.boundary .b
      = ({ ready with active := .b }, some (.bankSwitched .b 3)) := by decide

/-! ## One request of each kind -/

theorem test_readStatus_of_no_page : replied (.readStatus (ask 4 0 noArgs)) handed = some 4 := by decide

theorem test_setNode_and_readNode :
    (after (.setNode (ask 4 0 ⟨1, 0, 0, 0, 0, 0⟩)) handed).agent.params.passive = true
      ∧ (after (.readNode (ask 1 0 noArgs)) handed).link.cell[8]? = some 32 := by decide

theorem test_writeEntry_appends :
    (after (.writeEntry (ask 1 0 ⟨0x80, 12, 0, 0, 6, 15⟩)) handed).map.bankB
      = ⟨[⟨12, .insert (.levelHi 15)⟩], .editing⟩ := by decide

theorem test_writeEntry_is_refused :
    replied (.writeEntry (ask 0 0 noArgs)) handed = some 3
      ∧ replied (.writeEntry (ask 1 0 ⟨0x80, 12, 0, 0, 6, 16⟩)) handed = some 4 := by decide

theorem test_readEntry :
    (after (.readEntry (ask 0 2 noArgs)) (withMap liveMap)).link.cell.take 14
      = [5, 2, 0x11, 9, 0, 4, 0, 2, 0x80, 12, 0, 0, 1, 0] := by decide

theorem test_truncate_clear_and_commit_refused :
    (after (.truncateBank (ask 1 1 noArgs)) (withMap { liveMap with bankB := liveBank })).map.bankB
        = ⟨[⟨10, .tap 0 .high⟩], .editing⟩
      ∧ (after (.clearBank (ask 1 0 noArgs)) (withMap { liveMap with bankB := liveBank })).map.bankB = ⟨[], .empty⟩
      ∧ replied (.commitBank (ask 1 0 noArgs)) handed = some 5 := by decide

theorem test_writeChannelOutput_enables :
    (after (.writeChannelOutput (ask 0 9 ⟨0x80, 0, 16, 0, 6, 0⟩)) handed).generators[9]
        = Generator.enabledAt { Channel.default with period := 16, phase := 6 }
      ∧ replied (.writeChannelOutput (ask 0 9 ⟨0x80, 0, 15, 0, 6, 0⟩)) handed = some 4 := by decide

theorem test_writeChannelLevel_and_Trigger :
    ((after (.writeChannelLevel (ask 1 0 ⟨3, 1, 0, 0, 2, 1⟩)) handed).level.channels[0]).fadeRate = 256
      ∧ ((after (.writeChannelTrigger (ask 2 0 ⟨0, 2, 0, 1, 7, 1⟩)) handed).level.channels[0]).onThreshold = 2 := by
  decide

theorem test_readChannel :
    (after (.readChannel (ask 3 0 noArgs)) (withChannel 0 { Channel.default with demanded := 0x1234 })).link.cell.take 8
      = [5, 2, 0x21, 9, 0, 2, 0x12, 0x34] := by decide

theorem test_writeCurve_and_readCurve :
    ((after (.writeCurve (ask 2 16 ⟨1, 2, 0, 0, 0, 0⟩ 1)) handed).level.curves[1])[16] = 0x0102
      ∧ (after (.readCurve (ask 0 15 noArgs)) handed).link.cell[14]? = some 2 := by decide

theorem test_writeSense_and_readSense :
    ((after (.writeSenseLine (ask 0 4 ⟨3, 1, 0, 0, 0, 0⟩)) handed).sense.lines[4]).condition = .high
      ∧ (after (.writeSenseGlobal (ask 0 8 ⟨1, 1, 0, 0, 0, 0⟩)) handed).sense.armed = true
      ∧ replied (.readSense (ask 0 9 noArgs)) handed = some 4 := by decide

theorem test_overrides_and_freeze :
    (after (.setOverrideBlackout (ask 0 0 ⟨1, 0, 0, 0, 0, 0⟩)) handed).level.blackout = true
      ∧ (after (.setOverrideTestFull (ask 1 0 ⟨1, 0, 0, 0, 0, 0⟩)) handed).level.testFull = true
      ∧ (after (.setOverridePark (ask 2 15 ⟨1, 0x2E, 0xE0, 0, 0, 0⟩)) handed).level.parks[15] = ⟨true, 12000⟩
      ∧ (after (.freeze bare) handed).level.freezeRequest = true
      ∧ (after (.thaw bare) (after (.freeze bare) handed)).level.freezeRequest = false := by decide

theorem test_clearInterlock_of_the_sequence :
    replied (.clearInterlock bare) (withSense { handed.sense with active := true, matchState := true }) = some 5
      ∧ (after (.clearInterlock bare) (withSense { handed.sense with active := true })).sense.active = false := by
  decide

theorem test_events_and_flags :
    (after (.fetchEvent bare) handed).agent.queue = [] ∧ (after (.readFlags bare) handed).link.cell[9]? = some 1
      ∧ (after (.clearFlags (ask 0 0 ⟨0, 1, 0, 0, 0, 0⟩)) handed).agent.flags = 0
      ∧ (after (.setReportMask (ask 0 0 ⟨0xFD, 0xFF, 0, 0, 0, 0⟩)) handed).agent.mask = 0xDFF := by decide

theorem test_readCounters_clears :
    let s : State := { handed with link := { handed.link with headerErrors := 7 } }
    (after (.readCounters (ask 0 0 ⟨1, 0, 0, 0, 0, 0⟩)) s).link.headerErrors = 0
      ∧ (after (.readCounters (ask 0 0 ⟨1, 0, 0, 0, 0, 0⟩)) s).link.cell[7]? = some 7 := by decide

theorem test_resetNode_is_pending :
    (after (.resetNodeOutputs (ask 0 0 noArgs)) handed).agent.resetScope = some .outputs
      ∧ (after (.resetNodeTables (ask 1 0 noArgs)) handed).agent.resetScope = some .tables
      ∧ (after (.resetNodeEvents (ask 2 0 noArgs)) handed).agent.resetScope = some .events
      ∧ (after (.resetNodeScopeNode (ask 3 0 noArgs)) handed).agent.resetScope = some .node := by decide

/-! ## States that meet the hypotheses of each statement -/

theorem test_witness_NoCommandStopsThePart : State.reset.pending = [] := rfl

theorem powerOn_channel (i : Fin 16) : State.reset.level.channels[i] = .default := by
  simp [State.reset, State.powerOn, LevelEngine.powerOn]

theorem powerOn_generator (i : Fin 16) : State.reset.generators[i] = .powerOn := by
  simp [State.reset, State.powerOn]

/-- The copy of an EMPTY bank, just started. -/
def copyStarted : MapStore := { MapStore.powerOn with bankB := ⟨[], .copying⟩, op := some ⟨.copy, .b, 0, none⟩ }

theorem copyStarted_inOrder : copyStarted.inOrder := by
  refine ⟨⟨Nat.zero_le _, fun _ => rfl, (nomatch ·)⟩, ⟨Nat.zero_le _, (nomatch ·), (nomatch ·)⟩,
    ⟨rfl, rfl, rfl, Nat.le_refl 0, rfl⟩, Or.inl rfl⟩

theorem test_witness_MapStoreStaysInOrder :
    ∃ s t : State, s.map.inOrder ∧ step s = .next t ∧ s ≠ t :=
  ⟨{ withMap copyStarted with pending := [.copyComplete .whole] }, _, copyStarted_inOrder, rfl, by decide⟩

theorem test_witness_FramingStaysInOrder :
    ∃ s t : State, s.framingInOrder ∧ step s = .next t ∧ t.link.frame = .header := by
  refine ⟨{ State.reset with pending := [.frameStartMarkerArrival 0] }, _, ⟨⟨trivial, fun _ => ⟨rfl, rfl, rfl⟩, ?_, ?_,
    fun _ => rfl⟩, ⟨by decide, by decide, by decide, by decide, fun _ => ⟨rfl, rfl⟩⟩, fun h => absurd rfl h⟩, rfl, rfl⟩
  · decide
  · decide

/-- Every channel enabled in DIM with Period 16 and a duty of 9, at the start of a period. -/
def dimming : State :=
  { State.reset with
    level := { State.reset.level with
      channels := Vector.replicate 16 { Channel.default with enabled := true, period := 16 } },
    generators := Vector.replicate 16 { Generator.powerOn with
      runningPeriod := 16, appliedLevel := 40000, activeDuty := 9, lineActive := true, pulseArmed := true } }

theorem dimming_inOrder : dimming.outputsInOrder := by
  intro i
  have hc : dimming.level.channels[i] = { Channel.default with enabled := true, period := 16 } := by
    simp [dimming]
  have hg : dimming.generators[i] = { Generator.powerOn with
      runningPeriod := 16, appliedLevel := 40000, activeDuty := 9, lineActive := true, pulseArmed := true } := by
    simp [dimming]
  rw [hc, hg]
  refine ⟨⟨by decide, by decide, by decide, by decide, by decide⟩, by decide, fun _ =>
    ⟨⟨by decide, by decide, by decide, by decide⟩, ⟨rfl, rfl, rfl⟩, rfl, ?_⟩⟩
  decide

theorem test_witness_OutputsStayInOrder :
    ∃ s t : State, s.outputsInOrder ∧ step s = .next t :=
  ⟨{ dimming with pending := [.pwmClock 3] }, _, dimming_inOrder, rfl⟩

theorem test_witness_CountsStayInOrder : ∃ s t : State, s.countsInOrder ∧ step s = .next t := by
  refine ⟨{ State.reset with pending := [.baseTick 0] }, _, ⟨⟨Nat.zero_le _, by decide, fun _ => ⟨rfl, rfl⟩⟩,
    ⟨by decide, by decide⟩, by decide, Or.inr (by decide), ?_⟩, rfl⟩
  intro n _
  have : State.reset.sense.lines[n] = .atReset ((0 : Byte).getLsbD n.val) := by
    simp [State.reset, State.powerOn, SenseUnit.atReset]
  show (State.reset.sense.lines[n]).run = 0
  rw [this]
  rfl

theorem test_witness_MarkerBeginsAFrame :
    (State.reset.link.state = .down ∧ State.reset.agent.resetScope = none)
      ∧ (∀ state, state ≠ .down → (node state .between).link.state ≠ .down
        ∧ (node state .between).link.frame ≠ .header ∧ (node state .between).link.inFlight = false
        ∧ (node state .between).agent.resetScope = none)
      ∧ (node .hunt .bad).link.frame ≠ .header ∧ (node .hunt .bad).link.inFlight = false
      ∧ (node .locked (.good 24 16)).link.state ≠ .down ∧ (node .locked (.good 24 16)).link.frame ≠ .header := by
  refine ⟨⟨rfl, rfl⟩, fun state h => ⟨h, (nomatch ·), ?_, rfl⟩, by decide⟩
  cases state <;> rfl

theorem test_witness_EarlyEndTruncatesTheFrame :
    (∀ place slots, (node .locked (.good place slots)).link.state = .locked
        ∧ (node .locked (.good place slots)).link.frame = .good place slots
        ∧ (node .locked (.good place slots)).agent.resetScope = none) := fun _ _ => ⟨rfl, rfl, rfl⟩

theorem test_witness_OtherSymbolsAreRepeated :
    (∀ state, (node state .between).link.frame = .between ∧ (node state .between).link.state = state)
      ∧ (∀ state, (node state .bad).link.frame = .bad ∧ (node state .bad).link.state = state)
      ∧ (∀ state place slots, (node state (.good place slots)).link.frame = .good place slots
        ∧ (node state (.good place slots)).link.state = state) :=
  ⟨fun _ => ⟨rfl, rfl⟩, fun _ => ⟨rfl, rfl⟩, fun _ _ _ => ⟨rfl, rfl⟩⟩

theorem test_witness_BytesTakeTheirPlace :
    ((node .hunt .header).link.state ≠ .down ∧ (node .hunt .header).link.header.length < 7
        ∧ (beforeEighth .verify [0x10, 0, 3, 0, 0, 0]).link.header.length < 7)
      ∧ ((node .locked (.good 22 16)).link.frame = .good 22 16 ∧ 22 < 23)
      ∧ ((node .locked (.good 40 16)).link.frame = .good (24 + 16) 16 ∧ 0 < 16) := by decide

/-- The first seven bytes of a header at its bounds: Frame Index equal to Last Index, Slot Count 16. -/
def sevenBytes (frameIndex hopCount : Byte) : List Byte := [0x1C, frameIndex, 3, 9, hopCount, 0, 16]

theorem sevenBytes_good (frameIndex hopCount : Byte) (h : frameIndex.toNat ≤ 3) :
    headerIsGood 0x1C frameIndex 3 9 hopCount 0 16 (crc8 (sevenBytes frameIndex hopCount)) :=
  ⟨rfl, by decide, h, by decide, by decide⟩

theorem test_witness_headerIsGood_at_slot_count_512 :
    headerIsGood 0x10 3 3 0 0 2 0 (crc8 [0x10, 3, 3, 0, 0, 2, 0]) := ⟨rfl, by decide, by decide, by decide, by decide⟩

theorem test_witness_BadHeaders :
    (∀ state, state ≠ .down → (beforeEighth state (sevenBytes 0 0)).link.state ≠ .down
        ∧ (beforeEighth state (sevenBytes 0 0)).link.frame = .header)
      ∧ (∀ b8, ¬ headerIsGood 0x20 0 3 9 0 0 16 b8) ∧ (∀ b8, ¬ headerIsGood 0x10 4 3 9 0 0 16 b8)
      ∧ (∀ b8, ¬ headerIsGood 0x10 0 3 9 0 0 15 b8) ∧ ∀ b8, ¬ headerIsGood 0x10 0 3 9 0 2 1 b8 := by
  refine ⟨fun state h => ⟨h, rfl⟩, ?_, ?_, ?_, ?_⟩
  · rintro _ ⟨_, h, _⟩
    exact absurd h (by decide)
  · rintro _ ⟨_, _, h, _⟩
    exact absurd h (by decide)
  · rintro _ ⟨_, _, _, h, _⟩
    exact absurd h (by decide)
  · rintro _ ⟨_, _, _, _, h⟩
    exact absurd h (by decide)

theorem test_witness_good_headers :
    ∀ (state : LinkState) (frameIndex hopCount : Byte), frameIndex.toNat ≤ 3 →
      let s := beforeEighth state (sevenBytes frameIndex hopCount)
      s.link.state = state ∧ s.link.frame = .header ∧ s.link.header = [0x1C, frameIndex, 3, 9, hopCount, 0, 16]
        ∧ headerIsGood 0x1C frameIndex 3 9 hopCount 0 16 (crc8 (sevenBytes frameIndex hopCount))
        ∧ s.link.delay = List.replicate 18 .idle ++ List.replicate 7 .idle :=
  fun _ _ _ h => ⟨rfl, rfl, rfl, sevenBytes_good _ _ h, rfl⟩

/-- A node in VERIFY before the eighth byte of a header, with an expected index. -/
def verifying (expected frameIndex : Byte) (m : MapStore) : State :=
  { beforeEighth .verify (sevenBytes frameIndex 0) with
    link := { (beforeEighth .verify (sevenBytes frameIndex 0)).link with expected := expected }, map := m }

theorem test_witness_GoodHeaderInVerify :
    (∀ expected frameIndex m, (verifying expected frameIndex m).link.state = .verify
        ∧ (verifying expected frameIndex m).link.frame = .header
        ∧ (verifying expected frameIndex m).link.header = [0x1C, frameIndex, 3, 9, 0, 0, 16]
        ∧ (verifying expected frameIndex m).link.delay = List.replicate 18 .idle ++ List.replicate 7 .idle
        ∧ (verifying expected frameIndex m).link.expected = expected)
      ∧ (0 : Byte) ≠ 1 ∧ ((0x1C : Byte).getLsbD 3 = true ∧ BankName.b ≠ MapStore.powerOn.active)
      ∧ ((verifying 0 0 { MapStore.powerOn with bankB := liveBank }).map.bank .b).state = .ready
      ∧ ((verifying 0 0 .powerOn).map.bank .b).state ≠ .ready
      ∧ (verifying 0 0 .powerOn).map.misaligned = false :=
  ⟨fun _ _ _ => ⟨rfl, rfl, rfl, rfl, rfl⟩, by decide⟩

/-- A LOCKED node before the eighth byte of a boundary header that names bank B with Heartbeat 9. -/
def atBoundary (reference : Option Byte) (count : Nat) (stage : Fin 3) (bank : Bank) : State :=
  { beforeEighth .locked (sevenBytes 0 0) with
    link := { (beforeEighth .locked (sevenBytes 0 0)).link with
      reference := reference, staleCount := count, staleStage := stage },
    map := { MapStore.powerOn with bankB := bank } }

theorem test_witness_BoundaryDecidesBankAndWatch :
    (∀ reference count stage bank,
        (atBoundary reference count stage bank).link.state = .locked
          ∧ (atBoundary reference count stage bank).link.frame = .header
          ∧ (atBoundary reference count stage bank).link.header = [0x1C, 0, 3, 9, 0, 0, 16]
          ∧ headerIsGood 0x1C 0 3 9 0 0 16 (crc8 (sevenBytes 0 0))
          ∧ (atBoundary reference count stage bank).link.delay
            = List.replicate 18 .idle ++ List.replicate 7 .idle ∧ (List.replicate 7 Sym.idle).length = 7
          ∧ (atBoundary reference count stage bank).agent.mask = 0xFFF
          ∧ (atBoundary reference count stage bank).agent.queue.length ≤ 28)
      ∧ ((atBoundary (some 9) 15 1 liveBank).map.bank .b).state = .ready
      ∧ ((atBoundary (some 9) 3 0 .emptied).map.bank .b).state ≠ .ready
      ∧ (atBoundary (some 9) 15 1 liveBank).agent.params.staleLimit.toNat ≤ min (15 + 1) 255
      ∧ (atBoundary (some 9) 3 0 .emptied).agent.params.staleWarn.toNat ≤ min (3 + 1) 255
      ∧ (atBoundary (some 8) 15 1 liveBank).link.reference ≠ none
      ∧ (atBoundary (some 8) 15 1 liveBank).link.reference ≠ some 9
      ∧ (atBoundary none 0 0 liveBank).link.reference = none := by
  refine ⟨fun _ _ _ _ => ⟨rfl, rfl, rfl, sevenBytes_good 0 0 (by decide), rfl, rfl, rfl, ?_⟩, rfl, ?_, ?_, ?_, ?_, ?_, rfl⟩
  · show (1 : Nat) ≤ 28
    decide
  all_goals decide

/-- A LOCKED node before the last byte of a cell. -/
def beforeLast (position : Byte) (cell : List Byte) : State :=
  { node .locked (.good 23 16) with
    link := { (node .locked (.good 23 16)).link with position := position, cell := cell } }

set_option maxRecDepth 65536 in
theorem test_witness_CellIsPassedUnaltered :
    (∀ position b, (beforeLast position (List.replicate 15 b)).link.state = .locked
        ∧ (beforeLast position (List.replicate 15 b)).link.frame = .good 23 16
        ∧ (beforeLast position (List.replicate 15 b)).link.cell.length = 15)
      ∧ (0 : Byte) ≠ crc8 (List.replicate 15 0)
      ∧ (beforeLast 0 (List.replicate 15 1)).link.position = 0
      ∧ (beforeLast 5 (List.replicate 15 0)).link.cell[1]? ≠ some 0x01
      ∧ (beforeLast 5 (List.replicate 15 1)).link.cell[0]? ≠ some 5
      ∧ (beforeLast 5 (List.replicate 15 1)).link.cell[0]? ≠ some 255 := by
  exact ⟨fun _ _ => ⟨rfl, rfl, rfl⟩, by decide, rfl, by decide, by decide, by decide⟩

theorem take_getD_last (l : List Byte) (h : l.length = 16) : l.take 15 ++ [l.getD 15 0] = l := by
  rw [← List.getElem_eq_getD (h := by omega), List.take_concat_get', List.take_of_length_le (by omega)]

theorem test_witness_CellCarriesItsRequest (i : Instr) (c : RequestCode) (q : Req) (_ : requestRow i = some (c, q)) :
    ∃ (s : State) (b : Byte), s.link.state = .locked ∧ s.link.frame = .good 23 16
      ∧ s.link.cell ++ [b] = requestBytes c.byte q :=
  ⟨beforeLast 5 ((requestBytes c.byte q).take 15), (requestBytes c.byte q).getD 15 0, rfl, rfl,
    take_getD_last _ rfl⟩

theorem test_witness_UnknownCodes :
    ((∀ c : RequestCode, c.byte ≠ 0x00) ∧ ∀ c : RequestCode, c.byte ≠ 0x51)
      ∧ (3 ≤ (ask 3 0 noArgs).object.toNat ∧ 4 ≤ (ask 4 0 noArgs).object.toNat)
      ∧ ∀ (code : Byte) (q : Req), ∃ (s : State) (b : Byte), s.link.state = .locked ∧ s.link.frame = .good 23 16
        ∧ s.link.cell ++ [b] = requestBytes code q
        ∧ 1 ≤ s.link.position.toNat ∧ s.link.position.toNat ≤ 250 ∧ s.link.position = 250 := by
  refine ⟨⟨by intro c; cases c <;> decide, by intro c; cases c <;> decide⟩, by decide, fun code q =>
    ⟨beforeLast 250 ((requestBytes code q).take 15), (requestBytes code q).getD 15 0, rfl, rfl,
      take_getD_last _ rfl, ?_, ?_, rfl⟩⟩
  · show 1 ≤ (250 : Byte).toNat
    decide
  · show (250 : Byte).toNat ≤ 250
    decide

/-- Every request row is addressed somewhere: its operand alone decides. -/
theorem test_witness_addressed (i : Instr) (c : RequestCode) (q : Req) (_ : requestRow i = some (c, q))
    (h : q.destination = 5) : handed.addressed q ∧ 16 ≤ handed.link.delay.length :=
  ⟨addressed_of rfl h, by decide⟩

theorem test_witness_RequestsForOthersArePassed :
    ¬ State.reset.cellHanded ∧ (6 : Byte) ≠ handed.link.position ∧ (6 : Byte) ≠ 255 := by
  exact ⟨fun h => absurd h.1 (by decide), by decide, by decide⟩

theorem test_witness_BroadcastsGiveNoReply :
    (∀ q : Req, q.destination = 255 → handed.broadcast q)
      ∧ requestRow (.setOverrideTestFull { bare with destination := 255, object := 1 })
        = some (.setOverride, { bare with destination := 255, object := 1 })
      ∧ requestRow (.setOverrideTestFull { bare with object := 1 })
        = some (.setOverride, { ask 1 0 noArgs with destination := handed.link.position })
      ∧ requestRow (.setOverridePark { bare with destination := 255 })
        = some (.setOverride, { bare with destination := 255, object := 2 }) :=
  ⟨fun _ h => ⟨(addressed_of (q := bare) rfl rfl).1, h⟩, rfl, rfl, rfl⟩

/-- An acting frame at slot `n`, with bank A of the example active. -/
def atSlot (n : Nat) (acting : Bool) (place : Nat) : State :=
  { node .locked (.good (24 + n) 16) with
    map := liveMap,
    slot := { SlotEngine.powerOn with x := { Buffer.powerOn with state := .filling }, acting := acting, place := place } }

theorem test_witness_SlotEntriesArePerformedInOrder :
    (∀ n acting place, (atSlot n acting place).link.state = .locked
        ∧ (atSlot n acting place).link.frame = .good (24 + n) 16 ∧ (atSlot n acting place).slot.acting = acting)
      ∧ (15 < 16)
      ∧ ((atSlot 11 true 1).map.bank (atSlot 11 true 1).map.active).entries.drop (atSlot 11 true 1).slot.place
        = [⟨11, .tap 0 .low⟩] ++ [⟨12, .insert .nodeStatus⟩]
      ∧ ((atSlot 15 true 3).map.bank (atSlot 15 true 3).map.active).entries.drop (atSlot 15 true 3).slot.place
        = [] ++ [] :=
  ⟨fun _ _ _ => ⟨rfl, rfl, rfl⟩, by decide, rfl, rfl⟩

theorem test_witness_TapsStageAndInsertsSend :
    (atSlot 11 true 1).slot.x.state = .filling ∧ (atSlot 11 true 1).slot.y.state ≠ .filling
      ∧ ({ SlotEngine.powerOn with y := { Buffer.powerOn with state := .filling } } : SlotEngine).x.state ≠ .filling
      ∧ (bouncing.sense.lines[3]).fresh = false
      ∧ ((after (.baseTick 0x08) bouncing).sense.lines[3]).fresh = true := by decide

theorem test_witness_FrameEndsWithItsCheck :
    let s := node .locked (.good 41 16)
    s.link.state = .locked ∧ s.link.frame = .good (25 + 16) 16 ∧ s.agent.resetScope = none
      ∧ s.link.delay = List.replicate 24 .idle ++ [.idle]
      ∧ s.link.checkByte.toNat * 256 + (0 : Byte).toNat ≠ s.link.receivedCheck.toNat
      ∧ { s.link with checkByte := 0xFF }.checkByte.toNat * 256 + (0xFF : Byte).toNat = s.link.receivedCheck.toNat := by
  decide

theorem test_witness_PendingResetIsAppliedAtTheFrameEnd (scope : Scope) :
    let s : State := { node .locked (.good 41 16) with agent := { Agent.powerOn with resetScope := some scope } }
    s.link.state = .locked ∧ s.link.frame = .good 41 16 ∧ s.agent.resetScope = some scope ∧ 41 = 25 + 16 :=
  ⟨rfl, rfl, rfl, rfl⟩

theorem test_witness_ResetTouchesWhatItsScopeNames (scope : Scope) (owed : Option Event) :
    ({ handed with map := { MapStore.powerOn with owed := owed }, agent := { Agent.powerOn with resetScope := some scope } }
      : State).map.owed = owed := rfl

theorem test_witness_SymbolSendTakesTheOldest :
    { LinkFramer.powerOn with abortNext := true }.abortNext = true
      ∧ { LinkFramer.powerOn with delay := List.replicate 21 .idle }.delay = .idle :: List.replicate 20 .idle
      ∧ 20 ≤ (List.replicate 20 Sym.idle).length
      ∧ { LinkFramer.powerOn with delay := List.replicate 20 .idle }.delay.length ≤ 20 := by decide

/-- A node whose frame timeout has `left` base ticks left. -/
def timing (left : Option Nat) (state : LinkState) (frame : Frame) (scope : Option Scope) : State :=
  { node state frame with
    link := { (node state frame).link with timeout := left }, agent := { Agent.powerOn with resetScope := scope } }

theorem test_witness_TimeoutExpiryTakesTheLinkDown :
    (∀ left state frame scope, (timing left state frame scope).link.timeout = left
        ∧ (timing left state frame scope).link.state = state ∧ (timing left state frame scope).link.frame = frame
        ∧ (timing left state frame scope).agent.resetScope = scope
        ∧ (timing left state frame scope).map.owed = none)
      ∧ ∀ place slots, (timing (some 1) .locked .between none).link.frame ≠ .good place slots :=
  ⟨fun _ _ _ _ => ⟨rfl, rfl, rfl, rfl, rfl⟩, fun _ _ h => nomatch h⟩

theorem test_witness_EventsAreFlaggedAndQueued :
    State.reset.agent.mask.getLsbD (Event.senseMatch 0).kind.code = true ∧ State.reset.agent.queue.length < 32
      ∧ (withAgent { Agent.powerOn with mask := 0xDFF }).agent.mask.getLsbD (Event.senseMatch 0).kind.code = false
      ∧ (withAgent { Agent.powerOn with queue := List.replicate 32 ⟨.nodeStart, .none, 0, 0⟩ }).agent.queue.length
        = 32 := by decide

theorem test_witness_BaseTickAdvancesTheTimebase :
    Timebase.powerOn.ticks + 1 < 10 ∧ 10 ≤ { Timebase.powerOn with ticks := 9 }.ticks + 1
      ∧ { Timebase.powerOn with step := 3 }.step.val ∈ [3, 7, 11, 15, 19, 23] := by decide

theorem test_witness_SenseLinesAreFilteredAndCaptured :
    (bouncing.sense.lines[3]).filterOn = true ∧ (0x08 : Byte).getLsbD 3 ≠ (bouncing.sense.lines[3]).high
      ∧ (bouncing.sense.lines[3]).run = 3 ∧ (bouncing.sense.lines[2]).run.val < 3
      ∧ (0x08 : Byte).getLsbD 2 = (bouncing.sense.lines[2]).high
      ∧ ((after (.baseTick 0x08) bouncing).sense.lines[3]).high ≠ (bouncing.sense.lines[3]).high
      ∧ (bouncing.sense.lines[3]).captureEnable = true ∧ (bouncing.sense.lines[3]).captureEdge = .rise
      ∧ ((bouncing.sense.setLine 1 { SenseLine.atReset false with filterOn := false }).lines[1]).filterOn = false := by
  decide

theorem test_witness_MatchCountsAndTripsTheInterlock :
    doorOpens.sense.matchState = false ∧ doorOpens.sense.armed = true ∧ doorOpens.sense.active = false
      ∧ doorOpens.sense.matchMode = .or
      ∧ ((after (.baseTick 0x10) doorOpens).sense.lines[4]).condition = .high
      ∧ ((after (.baseTick 0x10) doorOpens).sense.lines[4]).high = true
      ∧ ((after (.baseTick 0) doorOpens).sense.lines[4]).high = false := by decide

theorem test_witness_StepTickSettlesEachChannel :
    State.reset.time.stepReady = false ∧ { Timebase.powerOn with ticks := 9 }.stepReady = true
      ∧ { Timebase.powerOn with stepDue := true }.stepReady = true := by decide

theorem test_witness_CurveEvaluation : (65535 : Level).toNat / 4096 + 1 < 17 ∧ (61440 : Level).toNat ≤ 61440 := by decide

theorem test_witness_FadeReachesItsTarget :
    ((0 : Level) = 0 ∧ (1 : Level) ≠ 0) ∧ (65535 + 1 - 1) / 1 ≤ 65535 ∧ 65534 < (65535 + 1 - 1) / 1 := by decide

/-- An enabled channel in a mode, with a demanded level. -/
def demanding (mode : Mode) (v : Level) : Channel := { Channel.default with enabled := true, mode := mode, demanded := v }

theorem test_witness_GeneratorsFollowTheDemandedLevel :
    Channel.default.enabled = false ∧ (∀ mode v, (demanding mode v).enabled = true ∧ (demanding mode v).mode = mode)
      ∧ (demanding .switch 32768).onThreshold ≤ (demanding .switch 32768).demanded
      ∧ (demanding .switch 16384).demanded ≤ (demanding .switch 16384).offThreshold
      ∧ (demanding .switch 16385).offThreshold < (demanding .switch 16385).demanded
      ∧ (demanding .switch 32767).demanded < (demanding .switch 32767).onThreshold
      ∧ (demanding .strobe 0).demanded = 0 ∧ (demanding .strobe 1).demanded ≠ 0
      ∧ { Generator.powerOn with strobeCycle := true, strobeCount := 2 }.strobeCount = 2
      ∧ { Generator.powerOn with pulseArmed := true, pulseRemaining := 2 }.pulseArmed = true := by
  refine ⟨rfl, fun _ _ => ⟨rfl, rfl⟩, ?_⟩
  decide

theorem test_witness_ClockAndPeriodOfAChannel :
    (State.reset.level.channels[0]).enabled = false ∧ ((dimNode dimRunning).level.channels[9]).enabled = true
      ∧ ((dimNode dimRunning).level.channels[9]).mode = .dim
      ∧ ((dimNode dimRunning).generators[9]).runningPeriod.toNat = ((dimNode dimRunning).generators[9]).counter + 1
      ∧ { dimRunning with counter := 14 }.counter + 1 < dimRunning.runningPeriod.toNat
      ∧ { dimRunning with counter := 0, activeDuty := 15 }.activeDuty < dimRunning.runningPeriod.toNat
      ∧ (withChannel 9 (demanding .pulse 0)).level.channels[9].mode ≠ .dim := by decide

theorem test_witness_PeriodEndIsARunOfClocks :
    dimming.outputsInOrder ∧ (dimming.level.channels[3]).enabled = true ∧ (dimming.level.channels[3]).mode = .dim
      ∧ (dimming.generators[3]).counter < (dimming.generators[3]).activeDuty
      ∧ (dimming.generators[3]).activeDuty < (dimming.generators[3]).runningPeriod.toNat := by
  refine ⟨dimming_inOrder, ?_⟩
  decide

theorem misordered_fault : commitFaultAt [⟨7, .tap 0 .byte⟩, ⟨3, .tap 1 .byte⟩] 1 .slotOrder :=
  (commitFault_eq_some _ _ _).1 (by decide)

theorem test_witness_TableOperationsAdvance :
    State.reset.map.op = none ∧ copyStarted.op = some ⟨.copy, copyStarted.active.other, 0, none⟩
      ∧ (copyStarted.bank copyStarted.active).entries.length ≤ 0
      ∧ { copyStarted with bankA := liveBank }.bankA.entries[0]? = some ⟨10, .tap 0 .high⟩
      ∧ misordered.op = some ⟨.commit, misordered.active.other, 0, none⟩
      ∧ commitFault misordered.bankB.entries 0 = none
      ∧ commitFault misordered.bankB.entries 1 = some .slotOrder
      ∧ commitFault [⟨4, .insert .nodeStatus⟩, ⟨4, .insert .matchCount⟩] 1 = some .doubleInsert
      ∧ misordered.bankB.entries.length ≤ 2 := by decide

/-- A COMMIT of the given entries into bank B, just started. -/
def committing (entries : List Entry) : MapStore :=
  { MapStore.powerOn with bankB := ⟨entries, .checking⟩, op := some ⟨.commit, .b, 0, none⟩ }

theorem committing_inOrder (entries : List Entry) (h : entries.length ≤ 128) : (committing entries).inOrder := by
  refine ⟨⟨Nat.zero_le _, fun _ => rfl, (nomatch ·)⟩, ⟨h, (nomatch ·), (nomatch ·)⟩,
    ⟨rfl, rfl, Nat.zero_le _, fun i hi => absurd hi (Nat.not_lt_zero i), fun _ h => nomatch h⟩, Or.inl rfl⟩

theorem test_witness_TableOperationsComplete :
    copyStarted.inOrder ∧ (committing [⟨7, .tap 0 .byte⟩, ⟨3, .tap 1 .byte⟩]).inOrder
      ∧ commitFaultAt [⟨7, .tap 0 .byte⟩, ⟨3, .tap 1 .byte⟩] 1 .slotOrder
      ∧ (∀ j other, j < 1 → ¬ commitFaultAt [⟨7, .tap 0 .byte⟩, ⟨3, .tap 1 .byte⟩] j other)
      ∧ (committing [⟨7, .tap 0 .byte⟩]).inOrder
      ∧ (∀ owed, { copyStarted with owed := owed }.inOrder ∧ { MapStore.powerOn with owed := owed }.op = none)
      ∧ ∀ i fault, i < 1 → ¬ commitFaultAt [⟨7, .tap 0 .byte⟩] i fault := by
  refine ⟨copyStarted_inOrder, committing_inOrder _ (by decide), misordered_fault, ?_,
    committing_inOrder _ (by decide), fun _ => ⟨copyStarted_inOrder, rfl⟩, ?_⟩
  · intro j other hj
    obtain rfl : j = 0 := by omega
    exact (commitFault_eq_none _ _).1 (by decide) other
  · intro j other hj
    obtain rfl : j = 0 := by omega
    exact (commitFault_eq_none _ _).1 (by decide) other

theorem test_witness_BankRequestsAreRefusedInOrder :
    requestRow (.readEntry (ask 2 0 noArgs)) = some (.readEntry, ask 2 0 noArgs) ∧ 2 ≤ (ask 2 0 noArgs).object.toNat
      ∧ (ask 0 0 noArgs).object = BankName.a.code ∧ BankName.a = handed.map.active
      ∧ (ask 1 0 noArgs).object = BankName.b.code ∧ BankName.b ≠ handed.map.active
      ∧ (copyStarted.bank .b).state = .copying ∧ ((committing []).bank .b).state = .checking
      ∧ (withMap copyStarted).addressed (ask 1 0 noArgs) :=
  ⟨rfl, by decide, rfl, rfl, rfl, by decide, rfl, rfl, addressed_of rfl rfl⟩

theorem test_witness_bankOpen (entries : List Entry) (index : BitVec 16) (args : Args) :
    let s := withMap { MapStore.powerOn with bankB := ⟨entries, .editing⟩ }
    s.addressed (ask 1 index args) ∧ s.bankOpen (ask 1 index args) .b
      ∧ (s.map.bank .b).count = entries.length ∧ (s.map.bank .b).state ≠ .empty :=
  ⟨addressed_of rfl rfl, ⟨rfl, (nomatch ·), by simp [withMap, MapStore.bank], by simp [withMap, MapStore.bank]⟩, rfl,
    by simp [withMap, MapStore.bank]⟩

theorem test_witness_EntriesAreWritten :
    (∀ e : Entry, carriesEntry e.args e) ∧ (∀ e, ¬ carriesEntry ⟨2, 0, 0, 0, 0, 0⟩ e)
      ∧ (List.replicate 128 (⟨0, .tap 0 .byte⟩ : Entry)).length = (128 : BitVec 16).toNat
      ∧ (List.replicate 127 (⟨0, .tap 0 .byte⟩ : Entry)).length = (127 : BitVec 16).toNat := by
  refine ⟨carriesEntry_args, fun e he => ?_, List.length_replicate .., List.length_replicate ..⟩
  have := (entryOf_eq_some _ _).2 he
  have none : entryOf ⟨2, 0, 0, 0, 0, 0⟩ = none := by decide
  rw [none] at this
  cases this

theorem test_witness_EntriesAreRead :
    (withMap liveMap).addressed (ask 0 2 noArgs) ∧ (ask 0 2 noArgs).object = BankName.a.code
      ∧ (liveMap.bank .a).state ≠ .copying ∧ (liveMap.bank .a).state ≠ .checking
      ∧ (liveMap.bank .a).count ≤ (3 : BitVec 16).toNat
      ∧ (liveMap.bank .a).entries[(2 : BitVec 16).toNat]? = some ⟨12, .insert .nodeStatus⟩
      ∧ (liveMap.bank .a).entries[(1 : BitVec 16).toNat]? = some ⟨11, .tap 0 .low⟩ :=
  ⟨addressed_of rfl rfl, rfl, by decide, by decide, by decide, rfl, rfl⟩

theorem test_witness_BankRequestsAreCarriedOut :
    (⟨[], .editing⟩ : Bank).count < (1 : BitVec 16).toNat ∧ (0 : BitVec 16).toNat ≤ (⟨[], .editing⟩ : Bank).count
      ∧ handed.bankOpen (ask 1 0 noArgs) .b ∧ (handed.map.bank .b).state = .empty :=
  ⟨by decide, by decide, ⟨rfl, by decide, by decide, by decide⟩, rfl⟩

/-- Every Object and Index a request to this node can carry, with any Arguments and any state behind the link. -/
theorem test_witness_requests (object : Byte) (index : BitVec 16) (args : Args) (count : Byte) (m : MapStore)
    (l : LevelEngine) (a : Agent) (u : SenseUnit) :
    (withMap m).addressed (ask object index args count) ∧ (withLevel l).addressed (ask object index args count)
      ∧ (withAgent a).addressed (ask object index args count) ∧ (withSense u).addressed (ask object index args count) :=
  ⟨addressed_of rfl rfl, addressed_of rfl rfl, addressed_of rfl rfl, addressed_of rfl rfl⟩

theorem test_witness_StatusPages :
    (ask 2 0 noArgs).object = 2 ∧ (ask 3 15 noArgs).index.toNat = (15 : Fin 16).val
      ∧ 16 ≤ (ask 3 16 noArgs).index.toNat ∧ 4 ≤ (ask 4 0 noArgs).object.toNat ∧ handed.map.op = none
      ∧ (copyStarted.op.map TableOp.kind) = some .copy ∧ (misordered.op.map TableOp.target) = some .b := by decide

theorem test_witness_NodeParameters :
    let p := handed.agent.params
    p.staleLimit ≠ 0 ∧ p.staleLimit.toNat < (17 : Byte).toNat ∧ (16 : Byte).toNat ≤ p.staleLimit.toNat
      ∧ (3 : Byte).toNat < p.staleWarn.toNat ∧ p.staleWarn.toNat ≤ (4 : Byte).toNat
      ∧ { p with staleLimit := 0 }.staleLimit = 0 ∧ 3 ≤ (3 : Byte).toNat ∧ 5 ≤ (5 : Byte).toNat := by decide

theorem test_witness_ChannelGroupsAreWritten :
    (withChannel 15 (demanding .dim 0)).addressed (ask 0 15 ⟨0x80, 0, 16, 0, 15, 0⟩)
      ∧ (withChannel 15 (demanding .dim 0)).level.channels[15].enabled = true
      ∧ (withChannel 15 .default).level.channels[15].enabled = false
      ∧ (wordAt 0 16).toNat = 16 ∧ (wordAt 0 15).toNat < (wordAt 0 16).toNat
      ∧ Mode.pulse.code.toNat = (0xB3 : Byte).toNat % 16 ∧ Divider.by64.code.toNat = (0xB3 : Byte).toNat / 16 % 4
      ∧ 4 ≤ (0x84 : Byte).toNat % 16 ∧ Mode.dim.code.toNat = (0x80 : Byte).toNat % 16
      ∧ Divider.by1.code.toNat = (0x80 : Byte).toNat / 16 % 4
      ∧ (demanding .dim 0).phase = wordAt 0 0 ∧ (demanding .dim 0).inverted = (0x80 : Byte).getLsbD 6
      ∧ (wordAt 0 1 ≠ 0 ∧ (wordAt 0 0).toNat < (wordAt 0 1).toNat ∧ (1 : Byte) ≠ 0) :=
  ⟨addressed_of rfl rfl, by decide, by decide, by decide, by decide, by decide, by decide, by decide, by decide,
    by decide, by decide, by decide, by decide, by decide, by decide⟩

theorem test_witness_ChannelGroupsAreRead :
    16 ≤ (ask 0 16 noArgs).index.toNat ∧ 4 ≤ (ask 4 0 noArgs).object.toNat
      ∧ (ask 3 15 noArgs).index.toNat = (15 : Fin 16).val ∧ (ask 3 15 noArgs).object = 3 := by decide

theorem test_witness_CurvesAreWrittenAndRead :
    (ask 1 14 noArgs 3).object.toNat = (0 : Fin 3).val + 1 ∧ (ask 3 16 noArgs 1).object.toNat = (2 : Fin 3).val + 1
      ∧ 14 + (ask 1 14 noArgs 3).count.toNat - 1 ≤ 16 ∧ ¬ (15 + (ask 1 15 noArgs 3).count.toNat - 1 ≤ 16)
      ∧ 4 ≤ (ask 4 0 noArgs).object.toNat ∧ 16 < (ask 0 17 noArgs).index.toNat ∧ (ask 0 16 noArgs).index.toNat ≤ 16 := by
  decide

theorem test_witness_SenseSettingsAndRecords :
    9 ≤ (ask 0 9 noArgs).index.toNat ∧ (ask 0 7 noArgs).index.toNat = (7 : Fin 8).val
      ∧ (ask 0 8 noArgs).index.toNat = 8 ∧ Condition.rise.code = 5 ∧ CaptureEdge.both.code = 2
      ∧ ¬ (6 : Byte).toNat ≤ 5 ∧ (1 : Byte).toNat ≤ 1 ∧ 2 ≤ (2 : Byte).toNat := by decide

theorem test_witness_OverridesFreezeAndInterlock :
    2 ≤ (2 : Byte).toNat ∧ 16 ≤ (ask 2 16 noArgs).index.toNat ∧ (ask 2 15 noArgs).index.toNat = (15 : Fin 16).val
      ∧ { handed.sense with active := true }.active = true ∧ handed.sense.matchState = false
      ∧ { handed.sense with active := true, matchState := true }.matchState = true ∧ handed.sense.active = false := by
  decide

theorem test_witness_InterlockEndsOnlyWhereItMay :
    ∃ t, exec (.clearInterlock bare) (withSense { handed.sense with active := true }) = .next t
      ∧ (withSense { handed.sense with active := true }).sense.active = true ∧ t.sense.active = false :=
  ⟨_, rfl, rfl, by decide⟩

theorem test_witness_EventsAndFlagsAreFetched :
    handed.agent.queue = ⟨.nodeStart, .none, 0, 0⟩ :: [] ∧ { handed.agent with queue := [] }.queue = [] := by decide

theorem test_witness_CountersAndPendingResets :
    2 ≤ (ask 2 0 noArgs).object.toNat ∧ (ask 0 0 ⟨1, 0, 0, 0, 0, 0⟩).args.a1.toNat ≤ 1
      ∧ 2 ≤ (ask 0 0 ⟨2, 0, 0, 0, 0, 0⟩).args.a1.toNat ∧ (ask 1 0 noArgs).object = 1 := by decide

theorem test_witness_InterlockEndsByACell :
    (beforeLast 5 ((requestBytes 0x33 bare).take 15)).link.cell ++ [(requestBytes 0x33 bare).getD 15 0]
      = requestBytes 0x33 bare := take_getD_last _ rfl

end Sys2Proof.Tests
end

section
/-! PROOFS. Power-on and the release of RESET_N (spec/00, R1, R2): the value of each block after power-on, and that
these values are in order. -/

namespace Sys2Proof.Machine

/-! ## The two commands -/

theorem exec_powerOn (sns : Byte) (s : State) : exec (.powerOn sns) s = .next (s.restart sns) := by
  rfl

theorem exec_resetNRelease (sns : Byte) (s : State) : exec (.resetNRelease sns) s = .next (s.restart sns) := by
  rfl

/-- Settles O3: both rows restart the part. -/
theorem resetReleaseActsAsPowerOn : Obligations.ResetReleaseActsAsPowerOn := by
  unfold Obligations.ResetReleaseActsAsPowerOn
  intro sns s
  rw [exec_powerOn, exec_resetNRelease, State.restart]
  exact ⟨rfl, rfl⟩

/-! ## The fields of the power-on state -/

@[simp] theorem State.link_powerOn (sns : Byte) : (State.powerOn sns).link = .powerOn := rfl

@[simp] theorem State.map_powerOn (sns : Byte) : (State.powerOn sns).map = .powerOn := rfl

@[simp] theorem State.slot_powerOn (sns : Byte) : (State.powerOn sns).slot = .powerOn := rfl

@[simp] theorem State.time_powerOn (sns : Byte) : (State.powerOn sns).time = .powerOn := rfl

@[simp] theorem State.level_powerOn (sns : Byte) : (State.powerOn sns).level = .powerOn := rfl

@[simp] theorem State.sense_powerOn (sns : Byte) : (State.powerOn sns).sense = .atReset sns := rfl

@[simp] theorem State.agent_powerOn (sns : Byte) : (State.powerOn sns).agent = .powerOn := rfl

/-! ## The elements of its vectors, and the interlock -/

theorem State.generator_powerOn (sns : Byte) (i : Fin 16) : (State.powerOn sns).generators[i] = .powerOn :=
  Vector.getElem_replicate i.isLt

theorem LevelEngine.channel_powerOn (i : Fin 16) : LevelEngine.powerOn.channels[i] = .default :=
  Vector.getElem_replicate i.isLt

theorem LevelEngine.park_powerOn (i : Fin 16) : LevelEngine.powerOn.parks[i] = ⟨false, 0⟩ :=
  Vector.getElem_replicate i.isLt

theorem LevelEngine.curve_powerOn (n : Fin 3) : LevelEngine.powerOn.curves[n] = defaultPoints :=
  Vector.getElem_replicate n.isLt

theorem SenseUnit.line_atReset (sns : Byte) (n : Fin 8) :
    (SenseUnit.atReset sns).lines[n] = .atReset (sns.getLsbD n.val) :=
  Vector.getElem_ofFn n.isLt

@[simp] theorem SenseUnit.active_atReset (sns : Byte) : (SenseUnit.atReset sns).active = false := rfl

/-! ## What is computed from it -/

/-- Every line is low: no Line Level is active and no Polarity is inverted (R105). -/
theorem State.outHigh_powerOn (sns : Byte) (i : Fin 16) : (State.powerOn sns).outHigh i = false := by
  rw [State.outHigh, State.generator_powerOn, State.level_powerOn, LevelEngine.channel_powerOn]
  rfl

/-- Attention alone, for the NODE_START record in the queue (R177, R187). -/
theorem State.statusByte_powerOn (sns : Byte) : (State.powerOn sns).statusByte = 0x80 := by
  rw [State.statusByte, State.agent_powerOn, State.level_powerOn, State.sense_powerOn, State.map_powerOn,
    SenseUnit.active_atReset]
  decide

/-- NODE_START is the one flag set (R177). -/
theorem Agent.flags_powerOn_getLsbD (n : Nat) : Agent.powerOn.flags.getLsbD n = true ↔ n = 0 := by
  rw [show Agent.powerOn.flags = 1#14 from rfl, BitVec.getLsbD_one]
  simp

/-- Every kind is admitted (R177). -/
theorem Agent.mask_powerOn_getLsbD : ∀ n, n < 12 → Agent.powerOn.mask.getLsbD n = true := by
  decide

/-- Settles O4, block by block: a channel, a generator or a sense line is the element of its vector. -/
theorem powerOnValues : Obligations.PowerOnValues := by
  unfold Obligations.PowerOnValues
  intro sns
  refine ⟨?link, ?map, ?slot, ?agent, State.statusByte_powerOn sns, ?time, ?outputs, ?curves, ?level, ?lines,
    ?sense⟩
  case link => simp [LinkFramer.powerOn]
  case map => simp [MapStore.powerOn, Bank.emptied]
  case slot => simp [SlotEngine.powerOn, Buffer.powerOn]
  case agent =>
    have hflags : ∀ n, n < 14 → (Agent.powerOn.flags.getLsbD n = true ↔ n = 0) :=
      fun n _ => Agent.flags_powerOn_getLsbD n
    exact ⟨rfl, rfl, rfl, rfl, rfl, rfl, rfl, hflags, Agent.mask_powerOn_getLsbD⟩
  case time => simp [Timebase.powerOn]
  case outputs =>
    intro i
    dsimp only
    rw [State.outHigh_powerOn, State.generator_powerOn, State.level_powerOn, LevelEngine.channel_powerOn,
      LevelEngine.park_powerOn]
    simp [Channel.default, Generator.powerOn]
  case curves =>
    intro n k
    rw [State.level_powerOn, LevelEngine.curve_powerOn]
    exact defaultPoints_toNat k
  case level => simp [LevelEngine.powerOn]
  case lines =>
    intro n
    dsimp only
    rw [State.sense_powerOn, SenseUnit.line_atReset]
    simp [SenseLine.atReset]
  case sense => simp [SenseUnit.atReset]

/-! ## Each block in order -/

/-- Both banks are EMPTY and the unit is idle. -/
theorem MapStore.inOrder_powerOn : MapStore.powerOn.inOrder := by
  have hidle : MapStore.powerOn.unitInOrder := fun n => by cases n <;> exact ⟨nofun, nofun⟩
  exact ⟨Bank.inOrder_emptied, Bank.inOrder_emptied, hidle, .inl rfl⟩

/-- The link is DOWN between frames, with nothing to send. -/
theorem LinkFramer.inOrder_powerOn : LinkFramer.powerOn.inOrder :=
  ⟨trivial, fun _ => ⟨rfl, rfl, rfl⟩, Nat.zero_le _, by decide, fun _ => rfl⟩

/-- Both buffers are FREE and no frame is acting. -/
theorem SlotEngine.inOrder_powerOn (l : LinkFramer) : SlotEngine.powerOn.inOrder l :=
  ⟨by decide, by decide, by decide, nofun, fun _ => ⟨rfl, rfl⟩⟩

/-- The heartbeat watch has no reference and has counted nothing. -/
theorem LinkFramer.watchInOrder_powerOn : LinkFramer.powerOn.watchInOrder :=
  ⟨Nat.zero_le _, by decide, fun _ => ⟨rfl, rfl⟩⟩

theorem Timebase.inOrder_powerOn : Timebase.powerOn.inOrder :=
  ⟨by decide, nofun⟩

theorem Channel.inOrder_default : Channel.default.inOrder :=
  ⟨by decide, by decide, by decide, by decide, fun _ => rfl⟩

/-- The generator after power-on is that of a disabled channel with the default Period (R104, R119). -/
theorem Generator.disabledAt_default : Generator.disabledAt .default = .powerOn := by
  rfl

/-! ## The four invariants -/

/-- No frame is in flight, and no reset is pending (R165). -/
theorem State.framingInOrder_powerOn (sns : Byte) : (State.powerOn sns).framingInOrder :=
  ⟨LinkFramer.inOrder_powerOn, SlotEngine.inOrder_powerOn _, fun h => absurd rfl h⟩

/-- Every channel is disabled, and its generator rests. -/
theorem State.outputsInOrder_powerOn (sns : Byte) : (State.powerOn sns).outputsInOrder := by
  intro i
  rw [State.generator_powerOn, State.level_powerOn, LevelEngine.channel_powerOn]
  exact ⟨Channel.inOrder_default, fun _ => Generator.disabledAt_default.symm, nofun⟩

/-- The queue holds one record, the stale parameters are 4 and 16, and every sense line has Run Count 0. -/
theorem State.countsInOrder_powerOn (sns : Byte) : (State.powerOn sns).countsInOrder := by
  have hstale : NodeParams.default.staleWarn ≤ NodeParams.default.staleLimit := by decide
  have hrun : ∀ n : Fin 8, (SenseUnit.atReset sns).lines[n].run = 0 := fun n => by
    rw [SenseUnit.line_atReset]
    rfl
  exact ⟨LinkFramer.watchInOrder_powerOn, Timebase.inOrder_powerOn, by simp [Agent.powerOn], .inr hstale,
    fun n _ => hrun n⟩

/-- The machine is in order after power-on, whatever the levels of the sense lines. -/
theorem State.inOrder_powerOn (sns : Byte) : (State.powerOn sns).inOrder :=
  ⟨MapStore.inOrder_powerOn, State.framingInOrder_powerOn sns, State.outputsInOrder_powerOn sns,
    State.countsInOrder_powerOn sns⟩

/-- Settles O5: each block is in order at its power-on value. -/
theorem powerOnIsInOrder : Obligations.PowerOnIsInOrder := by
  unfold Obligations.PowerOnIsInOrder
  exact ⟨rfl, State.inOrder_powerOn⟩

end Sys2Proof.Machine
end

section
/-! PROOFS. What one command can do to the machine, said once; an invariant is then one lemma per effect. -/

namespace Sys2Proof.Machine

/-- The state a command leaves: the operation of the block that carries it out. -/
inductive State.Effect (s : State) : State → Prop where
  | restart (sns : Byte) : s.Effect (s.restart sns)
  | marker (sns : Byte) : s.Effect (s.setPins sns).endForMarker.beginFrame
  | byte (b : Byte) : s.Effect (s.receiveByte b)
  | lastByte (b sns : Byte) : s.Effect ((s.setPins sns).receiveByte b)
  | earlyEnd (sym : Sym) (sns : Byte) : s.Effect ((s.setPins sns).receiveEnd sym)
  | send : s.Effect { s with link := s.link.send }
  | expiry (sns : Byte) : s.link.expires = true → s.Effect (s.setPins sns).expire
  | noExpiry (sns : Byte) : s.link.expires = false → s.Effect (s.setPins sns)
  | baseTick (sns : Byte) : s.Effect (s.baseTick sns)
  | stepTick : s.time.stepReady = true → s.Effect { s.stepOperation with time := s.time.takeStep }
  | noStepTick : s.time.stepReady = false → s.Effect s
  | periodEnd (channel : Fin 16) : s.Effect (s.onGenerator channel Generator.periodEnd)
  | dutyEnd (channel : Fin 16) :
      s.Effect (s.onGenerator channel fun g mode => if mode = .dim then g.dutyEnd else g)
  | pwmClock (channel : Fin 16) : s.Effect (s.onGenerator channel Generator.pwmClock)
  | copyEntry : s.Effect { s with map := s.map.copyEntry }
  | copyDone (part : Completion) : s.Effect (s.complete MapStore.copyDone part)
  | examineEntry : s.Effect { s with map := s.map.examineEntry }
  | commitDone (part : Completion) : s.Effect (s.complete MapStore.commitDone part)
  | request (c : RequestCode) (q : Req) : s.Effect (s.request c q)

/-- An expiry runs where one is due, and elsewhere the pins alone change (R8; log 6). -/
theorem execFrameTimeoutExpiry_effect (sns : Byte) (s : State) :
    s.Effect (if s.link.expires then (s.setPins sns).expire else s.setPins sns) := by
  cases h : s.link.expires
  · exact .noExpiry sns h
  · exact .expiry sns h

/-- A step operation runs where a step tick is ready (R80; log 6). -/
theorem execStepTick_effect (s : State) :
    s.Effect (if s.time.stepReady then { s.stepOperation with time := s.time.takeStep } else s) := by
  cases h : s.time.stepReady
  · exact .noStepTick h
  · exact .stepTick h

/-- Every command has one of the effects. -/
theorem exec_effect {i : Instr} {s t : State} (h : exec i s = .next t) : s.Effect t := by
  cases hrow : requestRow i with
  | some row =>
    rw [exec_requestRow hrow] at h
    cases h
    exact .request row.1 row.2
  | none =>
    cases i with
    | powerOn sns => cases h; exact .restart sns
    | resetNRelease sns => cases h; exact .restart sns
    | frameStartMarkerArrival sns => cases h; exact .marker sns
    | dataByteArrival b => cases h; exact .byte b
    | headerEighthByteArrival b => cases h; exact .byte b
    | cellLastByteArrival b => cases h; exact .byte b
    | slotArrival b => cases h; exact .byte b
    | frameCheckSecondByteArrival b sns => cases h; exact .lastByte b sns
    | abortMarkerArrival sns => cases h; exact .earlyEnd .abort sns
    | idleArrival sns => cases h; exact .earlyEnd .idle sns
    | symbolSend => cases h; exact .send
    | frameTimeoutExpiry sns => cases h; exact execFrameTimeoutExpiry_effect sns s
    | baseTick sns => cases h; exact .baseTick sns
    | stepTick => cases h; exact execStepTick_effect s
    | periodEnd channel => cases h; exact .periodEnd channel
    | dimDutyEnd channel => cases h; exact .dutyEnd channel
    | pwmClock channel => cases h; exact .pwmClock channel
    | copyEntryCopied => cases h; exact .copyEntry
    | copyComplete part => cases h; exact .copyDone part
    | commitEntryExamined => cases h; exact .examineEntry
    | commitComplete part => cases h; exact .commitDone part
    | _ => cases hrow

/-- What every effect keeps, and the queue of waiting commands does not bear on, every step keeps. -/
theorem step_keeps {P : State → Prop}
    (hqueue : ∀ (s : State) (rest : List Instr), P s → P { s with pending := rest })
    (heffect : ∀ s t : State, s.Effect t → P s → P t) (s t : State) (hs : P s) (h : step s = .next t) : P t := by
  unfold step at h
  cases hp : s.pending with
  | nil => rw [hp] at h; cases h; exact hs
  | cons i rest => rw [hp] at h; exact heffect _ t (exec_effect h) (hqueue s rest hs)

end Sys2Proof.Machine
end

section
/-! PROOFS. Which operation of the Link Framer takes a symbol: one equation per link state and extent of the frame
(spec/01, sections 1.2 to 1.4). -/

namespace Sys2Proof.Machine

/-! ## A data byte -/

theorem State.receiveByte_of_down {s : State} (h : s.link.state = .down) (b : Byte) : s.receiveByte b = s := by
  rw [State.receiveByte, if_pos h]

theorem State.receiveByte_of_between {s : State} (h : s.link.state ≠ .down) (hf : s.link.frame = .between)
    (b : Byte) : s.receiveByte b = s.betweenSymbol (.data b) := by
  simp only [State.receiveByte, if_neg h, hf]

theorem State.receiveByte_of_bad {s : State} (h : s.link.state ≠ .down) (hf : s.link.frame = .bad) (b : Byte) :
    s.receiveByte b = { s with link := s.link.put (.data b) } := by
  simp only [State.receiveByte, if_neg h, hf]

theorem State.receiveByte_of_header {s : State} (h : s.link.state ≠ .down) (hf : s.link.frame = .header)
    (hl : s.link.header.length < 7) (b : Byte) : s.receiveByte b = s.headerByte b := by
  simp only [State.receiveByte, if_neg h, hf, if_pos hl]

theorem State.receiveByte_of_seven {s : State} (h : s.link.state ≠ .down) (hf : s.link.frame = .header)
    (hl : 7 ≤ s.link.header.length) (b : Byte) : s.receiveByte b = s.headerEighth b := by
  simp only [State.receiveByte, if_neg h, hf, if_neg (Nat.not_lt.2 hl)]

theorem State.receiveByte_of_locked {s : State} (h : s.link.state = .locked) {place slots : Nat}
    (hf : s.link.frame = .good place slots) (b : Byte) :
    s.receiveByte b = s.flightByte b (place + 1) slots := by
  simp [State.receiveByte, h, hf]

theorem State.receiveByte_of_pass {s : State} (h : s.link.state ≠ .down) (hl : s.link.state ≠ .locked)
    {place slots : Nat} (hf : s.link.frame = .good place slots) (b : Byte) :
    s.receiveByte b = s.passByte b (place + 1) slots := by
  simp only [State.receiveByte, if_neg h, hf, if_neg hl]

/-! ## A byte of a frame in flight, by its place -/

theorem State.flightByte_of_cell (s : State) (b : Byte) {place : Nat} (slots : Nat) (h : place < 24) :
    s.flightByte b place slots = s.cellByte b place slots := by
  rw [State.flightByte, if_pos h]

theorem State.flightByte_of_cellLast (s : State) (b : Byte) (slots : Nat) :
    s.flightByte b 24 slots = s.cellLast b slots := by
  simp [State.flightByte]

theorem State.flightByte_of_slot (s : State) (b : Byte) {place slots : Nat} (h : 25 ≤ place)
    (h' : place < 25 + slots) : s.flightByte b place slots = s.slotByte b place slots := by
  rw [State.flightByte, if_neg (by omega), if_neg (by omega), if_pos h']

theorem State.flightByte_of_check (s : State) (b : Byte) (slots : Nat) :
    s.flightByte b (25 + slots) slots = s.checkByte b (25 + slots) slots := by
  rw [State.flightByte, if_neg (by omega), if_neg (by omega), if_neg (by omega), if_pos rfl]

theorem State.flightByte_of_end (s : State) (b : Byte) {place slots : Nat} (h : 25 + slots < place) :
    s.flightByte b place slots = s.endChecked b := by
  rw [State.flightByte, if_neg (by omega), if_neg (by omega), if_neg (by omega), if_neg (by omega)]

/-! ## The second frame-check byte -/

/-- A correct check: the check over the sent bytes leaves, and the frame clock advances (R18, R27, R72). -/
theorem State.endChecked_of_correct {s : State} {b : Byte} (h : word16 s.link.checkByte b = s.link.receivedCheck) :
    s.endChecked b = State.endFrame
      { s with
        link := { (s.link.put (.data b)).substitute [hiByte s.link.sentCheck, loByte s.link.sentCheck] with
          frame := .between, frameClock := s.link.frameClock + 1 },
        slot := s.slot.endGood } := by
  simp [State.endChecked, h]

/-- An incorrect check: the complement leaves, and the error is counted (R18, R28, R73). -/
theorem State.endChecked_of_incorrect {s : State} {b : Byte}
    (h : word16 s.link.checkByte b ≠ s.link.receivedCheck) :
    s.endChecked b = State.endFrame
      { s with
        link := { (s.link.put (.data b)).substitute [hiByte (~~~s.link.sentCheck), loByte (~~~s.link.sentCheck)] with
          frame := .between, frameCheckErrors := countUp s.link.frameCheckErrors },
        slot := s.slot.endBad } := by
  simp [State.endChecked, h]

/-! ## An abort marker or an idle symbol -/

theorem State.receiveEnd_of_down {s : State} (h : s.link.state = .down) (sym : Sym) : s.receiveEnd sym = s := by
  rw [State.receiveEnd, if_pos h]

theorem State.receiveEnd_of_between {s : State} (h : s.link.state ≠ .down) (hf : s.link.frame = .between)
    (sym : Sym) : s.receiveEnd sym = s.betweenSymbol sym := by
  simp only [State.receiveEnd, if_neg h, hf]

theorem State.receiveEnd_of_bad {s : State} (h : s.link.state ≠ .down) (hf : s.link.frame = .bad) (sym : Sym) :
    s.receiveEnd sym = { s with link := s.link.put sym } := by
  simp only [State.receiveEnd, if_neg h, hf]

theorem State.receiveEnd_of_header {s : State} (h : s.link.state ≠ .down) (hf : s.link.frame = .header)
    (sym : Sym) : s.receiveEnd sym = State.badHeader { s with link := s.link.put sym } := by
  simp only [State.receiveEnd, if_neg h, hf]

theorem State.receiveEnd_of_locked {s : State} (h : s.link.state = .locked) {place slots : Nat}
    (hf : s.link.frame = .good place slots) (sym : Sym) :
    s.receiveEnd sym = State.truncate { s with link := s.link.put .abort } := by
  simp [State.receiveEnd, h, hf]

theorem State.receiveEnd_of_pass {s : State} (h : s.link.state ≠ .down) (hl : s.link.state ≠ .locked)
    {place slots : Nat} (hf : s.link.frame = .good place slots) (sym : Sym) :
    s.receiveEnd sym = { s with link := { s.link.put sym with frame := .between } } := by
  simp only [State.receiveEnd, if_neg h, hf, if_neg hl]

/-! ## A frame-start marker -/

theorem State.endForMarker_of_header {s : State} (hf : s.link.frame = .header) :
    s.endForMarker = s.badHeader := by
  simp only [State.endForMarker, hf]

theorem State.endForMarker_of_inFlight {s : State} (h : s.link.inFlight = true) :
    s.endForMarker = s.truncate := by
  unfold LinkFramer.inFlight at h
  split at h
  · next hs hf => simp only [State.endForMarker, hf, if_pos hs]
  · cases h

/-- Where no header is cut short and no frame is in flight, a marker ends nothing. -/
theorem State.endForMarker_of_rest {s : State} (hf : s.link.frame ≠ .header) (h : s.link.inFlight = false) :
    s.endForMarker = s := by
  unfold State.endForMarker
  split
  · rfl
  · next hh => exact absurd hh hf
  · rfl
  · next hg =>
    rw [if_neg]
    intro hs
    simp [LinkFramer.inFlight, hs, hg] at h

/-- A frame is in flight exactly in LOCKED after a good header (R17). -/
theorem LinkFramer.inFlight_iff (l : LinkFramer) :
    l.inFlight = true ↔ l.state = .locked ∧ ∃ place slots, l.frame = .good place slots := by
  unfold LinkFramer.inFlight
  split
  · next hs hf => simp [hs, hf]
  · next h =>
    refine ⟨nofun, ?_⟩
    rintro ⟨hs, place, slots, hf⟩
    exact absurd hf (h place slots hs)

theorem LinkFramer.inFlight_of_good {l : LinkFramer} (h : l.state = .locked) {place slots : Nat}
    (hf : l.frame = .good place slots) : l.inFlight = true :=
  l.inFlight_iff.2 ⟨h, place, slots, hf⟩

theorem LinkFramer.inFlight_of_not_locked {l : LinkFramer} (h : l.state ≠ .locked) : l.inFlight = false :=
  Bool.eq_false_iff.2 fun hh => h (l.inFlight_iff.1 hh).1

theorem LinkFramer.inFlight_of_not_good {l : LinkFramer} (h : ∀ place slots, l.frame ≠ .good place slots) :
    l.inFlight = false :=
  Bool.eq_false_iff.2 fun hh => by
    obtain ⟨-, place, slots, hf⟩ := l.inFlight_iff.1 hh
    exact h place slots hf

end Sys2Proof.Machine
end

section
/-! PROOFS. The link, the staging buffers and the pending reset stay in order (spec/01 sections 1.2 to 1.5; spec/03
sections 3.5 and 3.7; R165). -/

namespace Sys2Proof.Machine

/-! ## The staging buffers -/

/-- No acting frame is in progress: no buffer is FILLING, at most one is PENDING, and outside LOCKED both are FREE. -/
def SlotEngine.atRest (e : SlotEngine) (l : LinkFramer) : Prop :=
  e.acting = false ∧ e.x.state ≠ .filling ∧ e.y.state ≠ .filling
    ∧ ¬ (e.x.state = .pending ∧ e.y.state = .pending)
    ∧ (l.state ≠ .locked → e.x.state = .free ∧ e.y.state = .free)

theorem SlotEngine.inOrder_of_atRest {e : SlotEngine} {l : LinkFramer} (h : e.atRest l) : e.inOrder l := by
  obtain ⟨hacting, hx, hy, hpending, hfree⟩ := h
  exact ⟨fun hh => hx hh.1, hpending, by simp [hacting, hx, hy], by simp [hacting], hfree⟩

theorem SlotEngine.atRest_of_inOrder {e : SlotEngine} {l : LinkFramer} (h : e.inOrder l)
    (hf : l.inFlight = false) : e.atRest l := by
  obtain ⟨-, hpending, hfilling, hflight, hfree⟩ := h
  have hacting : e.acting = false := Bool.eq_false_iff.2 fun ha => by simp [hflight ha] at hf
  have hnone : ¬ (e.x.state = .filling ∨ e.y.state = .filling) := fun hh => by simp [hfilling.2 hh] at hacting
  exact ⟨hacting, fun hh => hnone (.inl hh), fun hh => hnone (.inr hh), hpending, hfree⟩

/-- In a frame in flight only the buffers' states and the acting frame bear on the order. -/
theorem SlotEngine.inOrder_of_inFlight {e f : SlotEngine} {l m : LinkFramer} (h : e.inOrder l)
    (hm : m.inFlight = true) (hx : f.x.state = e.x.state) (hy : f.y.state = e.y.state)
    (ha : f.acting = e.acting) : f.inOrder m := by
  obtain ⟨hfilling, hpending, hacting, -, -⟩ := h
  unfold SlotEngine.inOrder
  rw [hx, hy, ha]
  exact ⟨hfilling, hpending, hacting, fun _ => hm, fun hh => absurd (m.inFlight_iff.1 hm).1 hh⟩

/-- A buffer's state once a FILLING one is freed (R73). -/
theorem Buffer.state_dropFilling (b : Buffer) :
    b.dropFilling.state = if b.state = .filling then .free else b.state := by
  unfold Buffer.dropFilling
  split <;> rfl

/-- A buffer's state once a PENDING one is freed (R72, R74). -/
theorem Buffer.state_dropPending (b : Buffer) :
    b.dropPending.state = if b.state = .pending then .free else b.state := by
  unfold Buffer.dropPending
  split <;> rfl

/-- A tap leaves the buffer's state alone (R60). -/
@[simp] theorem Buffer.state_tap (b : Buffer) (channel : Fin 16) (part : Part) (v : Byte) :
    (b.tap channel part v).state = b.state := by
  unfold Buffer.tap
  split <;> rfl

theorem SlotEngine.endBad_atRest {e : SlotEngine} {l : LinkFramer} (h : e.inOrder l) : e.endBad.atRest l := by
  obtain ⟨-, hpending, -, -, hfree⟩ := h
  refine ⟨rfl, ?_, ?_, ?_, ?_⟩ <;>
    simp only [SlotEngine.endBad, Buffer.state_dropFilling]
  · split <;> simp_all
  · split <;> simp_all
  · rintro ⟨hx, hy⟩
    split at hx <;> split at hy <;> simp_all
  · intro hl
    simp [hfree hl]

theorem SlotEngine.endGood_atRest {e : SlotEngine} {l : LinkFramer} (h : e.inOrder l)
    (hl : l.state = .locked) : e.endGood.atRest l := by
  obtain ⟨hfilling, hpending, -, -, -⟩ := h
  unfold SlotEngine.endGood
  split
  · next hx =>
    have hy : e.y.state ≠ .filling := fun hy => hfilling ⟨hx, hy⟩
    refine ⟨rfl, nofun, ?_, ?_, fun hh => absurd hl hh⟩ <;> simp only [Buffer.state_dropPending]
    · split <;> simp_all
    · split <;> simp_all
  · next hx =>
    split
    · next hy =>
      refine ⟨rfl, ?_, nofun, ?_, fun hh => absurd hl hh⟩ <;> simp only [Buffer.state_dropPending]
      · split <;> simp_all
      · split <;> simp_all
    · next hy => exact ⟨rfl, hx, hy, hpending, fun hh => absurd hl hh⟩

theorem SlotEngine.freeBoth_atRest {e : SlotEngine} (h : e.acting = false) (l : LinkFramer) :
    e.freeBoth.atRest l :=
  ⟨h, nofun, nofun, nofun, fun _ => ⟨rfl, rfl⟩⟩

theorem SlotEngine.takePending_inOrder {e : SlotEngine} {l : LinkFramer} (h : e.inOrder l) :
    e.takePending.inOrder l := by
  obtain ⟨hfilling, hpending, hacting, hflight, hfree⟩ := h
  have hdrop : ∀ b : Buffer, (b.dropPending.state = .filling ↔ b.state = .filling)
      ∧ b.dropPending.state ≠ .pending ∧ (b.state = .free → b.dropPending.state = .free) := by
    intro b
    rw [Buffer.state_dropPending]
    split <;> simp_all
  obtain ⟨hx, hx', hx''⟩ := hdrop e.x
  obtain ⟨hy, -, hy''⟩ := hdrop e.y
  refine ⟨?_, fun hh => hx' hh.1, ?_, hflight, fun hl => ⟨hx'' (hfree hl).1, hy'' (hfree hl).2⟩⟩
  · rintro ⟨h1, h2⟩
    exact hfilling ⟨hx.1 h1, hy.1 h2⟩
  · exact hacting.trans (or_congr hx hy).symm

/-- An acting frame takes a buffer that is not PENDING: X where it is FREE, else Y (R58, R71). -/
theorem SlotEngine.startFrame_inOrder {e : SlotEngine} {l : LinkFramer} (h : e.atRest l)
    (hf : l.inFlight = true) (channels : Vector Channel 16) : (e.startFrame channels).inOrder l := by
  obtain ⟨-, hx, hy, hpending, -⟩ := h
  have hlocked : l.state = .locked := (l.inFlight_iff.1 hf).1
  unfold SlotEngine.startFrame
  split
  · next hfree =>
    exact ⟨fun hh => hy hh.2, nofun, ⟨fun _ => .inl rfl, fun _ => rfl⟩, fun _ => hf,
      fun hh => absurd hlocked hh⟩
  · next hfree =>
    exact ⟨fun hh => hx hh.1, nofun, ⟨fun _ => .inr rfl, fun _ => rfl⟩, fun _ => hf,
      fun hh => absurd hlocked hh⟩

/-! ## The Link Framer -/

/-- The bounds of a link that is not DOWN, whatever frame is in progress. -/
def LinkFramer.upInOrder (l : LinkFramer) : Prop :=
  l.state ≠ .down ∧ l.position.toNat ≤ 250 ∧ l.badHeaders < 3 ∧ (l.state ≠ .locked → l.badHeaders = 0)

theorem LinkFramer.upInOrder_of_inOrder {l : LinkFramer} (h : l.inOrder) (hd : l.state ≠ .down) : l.upInOrder :=
  ⟨hd, h.2.2⟩

theorem LinkFramer.inOrder_of_up {l : LinkFramer} (h : l.upInOrder) (hf : l.frameInOrder) : l.inOrder :=
  ⟨hf, fun hd => absurd hd h.1, h.2⟩

/-- A longer delay line keeps the frame in order. -/
theorem LinkFramer.frameInOrder_put {l : LinkFramer} (h : l.frameInOrder) (sym : Sym) :
    (l.put sym).frameInOrder := by
  have hlen : l.delay.length ≤ (l.put sym).delay.length := by simp
  unfold LinkFramer.frameInOrder at h ⊢
  rw [LinkFramer.frame_put]
  split <;> simp_all <;> omega

theorem LinkFramer.inOrder_put {l : LinkFramer} (h : l.inOrder) (hd : l.state ≠ .down) (sym : Sym) :
    (l.put sym).inOrder :=
  LinkFramer.inOrder_of_up (LinkFramer.upInOrder_of_inOrder (l := l) h hd) (LinkFramer.frameInOrder_put h.1 sym)

/-- The frame that a good header opens, once its eight symbols stand in the delay line. -/
theorem LinkFramer.frameInOrder_opened {l : LinkFramer} {slots : Nat} (hf : l.frame = .good 8 slots)
    (h16 : 16 ≤ slots) (h512 : slots ≤ 512) (hd : 9 ≤ l.delay.length) (hc : l.cell = []) : l.frameInOrder := by
  simp [LinkFramer.frameInOrder, hf, hc]
  omega

/-- A frame in flight that moves on by one byte keeps its cell bytes in step with its place. -/
theorem LinkFramer.inOrder_advance {l : LinkFramer} (h : l.inOrder) (hlocked : l.state = .locked)
    {place slots : Nat} (hf : l.frame = .good place slots) (hend : place < 25 + slots) {cell : List Byte}
    (hcell : cell.length = min (place + 1 - 8) 16) (sym : Sym) (checkByte : Byte)
    (received sent : BitVec 16) :
    LinkFramer.inOrder
      { l with
        frame := .good (place + 1) slots, delay := l.delay ++ [sym], cell := cell, checkByte := checkByte,
        receivedCheck := received, sentCheck := sent } := by
  have hframe := h.1
  simp only [LinkFramer.frameInOrder, hf] at hframe
  obtain ⟨h8, -, h16, h512, hdelay, -⟩ := hframe
  refine LinkFramer.inOrder_of_up (LinkFramer.upInOrder_of_inOrder (l := l) h (by simp [hlocked])) ?_
  exact ⟨by omega, by omega, h16, h512, by simp; omega, fun _ => hcell⟩

/-- A node reset leaves the framing items alone (R23, R26, R28). -/
theorem LinkFramer.inOrder_nodeReset {l : LinkFramer} (h : l.inOrder) (scope : Scope) :
    (l.nodeReset scope).inOrder := by
  cases scope <;> exact h

@[simp] theorem LinkFramer.state_nodeReset (l : LinkFramer) (scope : Scope) :
    (l.nodeReset scope).state = l.state := by
  cases scope <;> rfl

/-- A symbol leaves only while twenty stay behind it (R14). -/
theorem LinkFramer.inOrder_send {l : LinkFramer} (h : l.inOrder) : l.send.inOrder := by
  unfold LinkFramer.send
  split
  · exact h
  · split
    · next hlen =>
      obtain ⟨hf, hdown, hrest⟩ := h
      rw [delayByteTimes] at hlen
      refine ⟨?_, fun hd => ⟨(hdown hd).1, (hdown hd).2.1, by simp [(hdown hd).2.2]⟩, hrest⟩
      unfold LinkFramer.frameInOrder at hf ⊢
      dsimp only
      split <;> simp_all <;> omega
    · exact h

theorem LinkFramer.send_frame (l : LinkFramer) :
    ∃ delay abortNext linkOut,
      l.send = { l with delay := delay, abortNext := abortNext, linkOut := linkOut } := by
  unfold LinkFramer.send
  split
  · exact ⟨_, _, _, rfl⟩
  · split <;> exact ⟨_, _, _, rfl⟩

theorem LinkFramer.inOrder_countTimeout {l : LinkFramer} (h : l.inOrder) : l.countTimeout.inOrder := by
  obtain ⟨hf, hdown, hrest⟩ := h
  exact ⟨hf, fun hd => ⟨(hdown hd).1, by simp [(hdown hd).2.1], (hdown hd).2.2⟩, hrest⟩

/-- The heartbeat watch touches its own four items alone (R24). -/
theorem LinkFramer.watch_frame (l : LinkFramer) (p : NodeParams) (heartbeat : Byte) :
    ∃ reference count stage cause, (l.watch p heartbeat).1
      = { l with reference := reference, staleCount := count, staleStage := stage, staleCause := cause } := by
  rcases l.watch_cases p heartbeat with
    ⟨-, h⟩ | ⟨-, -, h⟩ | ⟨-, -, h⟩ | ⟨-, -, -, h⟩ | ⟨-, -, h⟩ | ⟨-, -, h⟩ <;>
    exact ⟨_, _, _, _, by rw [h]⟩

/-! ## The machine between frames and in flight -/

/-- In order, with no frame in flight and so no reset pending. -/
def State.settled (s : State) : Prop :=
  s.link.inOrder ∧ s.slot.atRest s.link ∧ s.agent.resetScope = none

theorem State.framingInOrder_of_settled {s : State} (h : s.settled) : s.framingInOrder :=
  ⟨h.1, SlotEngine.inOrder_of_atRest h.2.1, fun hr => absurd h.2.2 hr⟩

theorem State.settled_of_framingInOrder {s : State} (h : s.framingInOrder) (hf : s.link.inFlight = false) :
    s.settled := by
  obtain ⟨hlink, hslot, hreset⟩ := h
  refine ⟨hlink, SlotEngine.atRest_of_inOrder hslot hf, ?_⟩
  by_contra hr
  simp [hreset hr] at hf

/-- Link, Slot Engine and pending reset are all that bears on the framing. -/
theorem State.framingInOrder_congr {s t : State} (h : s.framingInOrder) (hl : t.link = s.link)
    (hs : t.slot = s.slot) (hr : t.agent.resetScope = s.agent.resetScope) : t.framingInOrder := by
  unfold State.framingInOrder
  rw [hl, hs, hr]
  exact h

/-! ## The end of a frame -/

/-- A pending reset is applied at the frame's end, and nothing is pending after it (R166). -/
theorem State.endFrame_settled {s : State} (hl : s.link.inOrder) (hs : s.slot.atRest s.link) :
    s.endFrame.settled := by
  unfold State.endFrame
  split
  · next hr => exact ⟨hl, hs, hr⟩
  · next scope hr =>
    obtain ⟨elink, -, eslot, -⟩ := s.applyReset_blocks scope
    refine ⟨elink ▸ LinkFramer.inOrder_nodeReset hl scope, ?_, s.resetScope_applyReset scope⟩
    rw [eslot]
    unfold SlotEngine.atRest
    rw [elink, LinkFramer.state_nodeReset]
    cases scope
    case outputs => exact SlotEngine.freeBoth_atRest hs.1 s.link
    case tables => exact hs
    case events => exact hs
    case node => exact SlotEngine.freeBoth_atRest hs.1 s.link

theorem State.truncate_settled {s : State} (hu : s.link.upInOrder) (hs : s.slot.inOrder s.link) :
    s.truncate.settled :=
  State.endFrame_settled (LinkFramer.inOrder_of_up hu trivial) (SlotEngine.endBad_atRest (l := s.link) hs)

theorem State.endChecked_settled {s : State} (hu : s.link.upInOrder) (hs : s.slot.inOrder s.link)
    (hl : s.link.state = .locked) (b : Byte) : (s.endChecked b).settled := by
  by_cases hc : word16 s.link.checkByte b = s.link.receivedCheck
  · rw [State.endChecked_of_correct hc]
    exact State.endFrame_settled (LinkFramer.inOrder_of_up hu trivial)
      (SlotEngine.endGood_atRest (l := s.link) hs hl)
  · rw [State.endChecked_of_incorrect hc]
    exact State.endFrame_settled (LinkFramer.inOrder_of_up hu trivial) (SlotEngine.endBad_atRest (l := s.link) hs)

/-! ## Headers -/

/-- A bad header leaves the frame to run to the next marker; at the third in a row LOCKED is left (R9, R10, R12). -/
theorem State.badHeader_settled {s : State} (hu : s.link.upInOrder) (hs : s.slot.atRest s.link)
    (hr : s.agent.resetScope = none) : s.badHeader.settled := by
  obtain ⟨hdown, hpos, hbad, hzero⟩ := hu
  unfold State.badHeader
  split
  · next h => exact absurd h hdown
  · exact ⟨LinkFramer.inOrder_of_up ⟨hdown, hpos, hbad, hzero⟩ trivial, hs, hr⟩
  · next h =>
    have hfree := hs.2.2.2.2 (by simp [h])
    have hb : s.link.badHeaders = 0 := hzero (by simp [h])
    exact ⟨LinkFramer.inOrder_of_up ⟨nofun, hpos, hbad, fun _ => hb⟩ trivial,
      ⟨hs.1, hs.2.1, hs.2.2.1, hs.2.2.2.1, fun _ => hfree⟩, hr⟩
  · next h =>
    dsimp only
    split
    · exact ⟨LinkFramer.inOrder_of_up ⟨nofun, hpos, Nat.zero_lt_succ 2, fun _ => rfl⟩ trivial,
        SlotEngine.freeBoth_atRest hs.1 _, by simpa [State.leaveForHunt] using hr⟩
    · next hlt =>
      exact ⟨LinkFramer.inOrder_of_up ⟨hdown, hpos, Nat.lt_of_not_le hlt, fun hh => absurd h hh⟩ trivial,
        hs, hr⟩

/-- What two events in either order leave alone. -/
theorem State.raiseEither_frame (s : State) (a b : Option Event) :
    (s.raiseEither a b).link = s.link ∧ (s.raiseEither a b).map = s.map ∧ (s.raiseEither a b).slot = s.slot
      ∧ (s.raiseEither a b).level = s.level ∧ (s.raiseEither a b).generators = s.generators
      ∧ (s.raiseEither a b).sense = s.sense ∧ (s.raiseEither a b).time = s.time
      ∧ (s.raiseEither a b).agent.params = s.agent.params ∧ (s.raiseEither a b).agent.mask = s.agent.mask
      ∧ (s.raiseEither a b).agent.resetScope = s.agent.resetScope
      ∧ (s.raiseEither a b).pending = s.pending := by
  obtain ⟨es, he, -, -⟩ := s.raiseEither_eq a b
  obtain ⟨h1, h2, h3, h4, h5, h6, h7, h8, h9, h10, -, h12⟩ := State.raiseAll_frame es s
  rw [he]
  exact ⟨h1, h2, h3, h4, h5, h6, h7, h8, h9, h10, h12⟩

/-- What a superframe boundary does to each block: the watch in the link, the swap in the Map Store, and events at the
Agent (R22). -/
theorem State.boundary_frame (s : State) (h : Header) :
    (s.boundary h).link = (s.link.watch s.agent.params h.heartbeat).1
      ∧ (s.boundary h).map = (s.map.boundary h.bank).1 ∧ (s.boundary h).slot = s.slot
      ∧ (s.boundary h).level = s.level ∧ (s.boundary h).generators = s.generators
      ∧ (s.boundary h).sense = s.sense ∧ (s.boundary h).time = s.time
      ∧ (s.boundary h).agent.params = s.agent.params ∧ (s.boundary h).agent.mask = s.agent.mask
      ∧ (s.boundary h).agent.resetScope = s.agent.resetScope ∧ (s.boundary h).pending = s.pending :=
  State.raiseEither_frame _ _ _

/-- The acting-frame decision on a frame just opened (R56, R71). -/
theorem State.decideActing_framing {s : State} (hl : s.link.inOrder) (hf : s.link.inFlight = true)
    (hs : s.slot.atRest s.link) : s.decideActing.framingInOrder := by
  unfold State.decideActing
  split
  · exact ⟨hl, SlotEngine.startFrame_inOrder hs hf _, fun _ => hf⟩
  · exact ⟨hl, SlotEngine.inOrder_of_atRest ⟨rfl, hs.2⟩, fun _ => hf⟩

theorem State.afterLockedHeader_framing {s : State} (hl : s.link.inOrder) (hf : s.link.inFlight = true)
    (hs : s.slot.atRest s.link) (h : Header) : (s.afterLockedHeader h).framingInOrder := by
  unfold State.afterLockedHeader
  split
  · obtain ⟨elink, -, eslot, -⟩ := s.boundary_frame h
    obtain ⟨r, c, st, ca, ewatch⟩ := s.link.watch_frame s.agent.params h.heartbeat
    rw [ewatch] at elink
    apply State.decideActing_framing
    · rw [elink]; exact hl
    · rw [elink]; exact hf
    · rw [elink, eslot]; exact hs
  · exact State.decideActing_framing hl hf hs

/-- A good header, its eight symbols in the delay line, opens a frame in order (R9 to R12). -/
theorem State.takeHeader_framing {s : State} (hu : s.link.upInOrder) (hs : s.slot.atRest s.link)
    (hr : s.agent.resetScope = none) (hd : 9 ≤ s.link.delay.length) {h : Header} (h16 : 16 ≤ h.slotCount)
    (h512 : h.slotCount ≤ 512) : (s.takeHeader h).framingInOrder := by
  obtain ⟨hdown, hpos, hbad, hzero⟩ := hu
  have hfollow : ∀ l : LinkFramer, l.frame = .good 8 h.slotCount → l.cell = [] →
      l.delay = (s.link.followHeader h).delay → l.frameInOrder := fun l hf hc hdel =>
    LinkFramer.frameInOrder_opened hf h16 h512
      (by rw [hdel]; simpa [LinkFramer.followHeader, LinkFramer.acceptHeader, replaceLast_length] using hd) hc
  have hpos' := positionOf_le h.hopCount
  unfold State.takeHeader
  split
  · next hstate => exact absurd hstate hdown
  · next hstate =>
    have hfree := hs.2.2.2.2 (by simp [hstate])
    have hb : s.link.badHeaders = 0 := hzero (by simp [hstate])
    exact State.framingInOrder_of_settled
      ⟨LinkFramer.inOrder_of_up ⟨nofun, hpos', hbad, fun _ => hb⟩ (hfollow _ rfl rfl rfl),
        ⟨hs.1, hs.2.1, hs.2.2.1, hs.2.2.2.1, fun _ => hfree⟩, hr⟩
  · next hstate =>
    have hfree := hs.2.2.2.2 (by simp [hstate])
    have hb : s.link.badHeaders = 0 := hzero (by simp [hstate])
    split
    · unfold State.enterLocked
      apply State.afterLockedHeader_framing
      · exact LinkFramer.inOrder_of_up ⟨nofun, hpos', Nat.zero_lt_succ 2, fun _ => rfl⟩ (hfollow _ rfl rfl rfl)
      · exact LinkFramer.inFlight_of_good rfl rfl
      · exact ⟨hs.1, hs.2.1, hs.2.2.1, hs.2.2.2.1, fun _ => hfree⟩
    · exact State.framingInOrder_of_settled
        ⟨LinkFramer.inOrder_of_up ⟨nofun, hpos, hbad, fun _ => hb⟩
            (LinkFramer.frameInOrder_opened rfl h16 h512 hd rfl),
          ⟨hs.1, hs.2.1, hs.2.2.1, hs.2.2.2.1, fun _ => hfree⟩, hr⟩
  · next hstate =>
    unfold State.lockedHeader
    dsimp only
    have hmoved : LinkFramer.upInOrder { s.link.followHeader h with badHeaders := 0 } :=
      ⟨by simpa [LinkFramer.followHeader, LinkFramer.acceptHeader] using hdown, hpos', Nat.zero_lt_succ 2,
        fun _ => rfl⟩
    apply State.afterLockedHeader_framing
    · rw [(State.raise?_frame _ _).1, (State.raise?_frame _ _).1]
      exact LinkFramer.inOrder_of_up hmoved (hfollow _ rfl rfl rfl)
    · rw [(State.raise?_frame _ _).1, (State.raise?_frame _ _).1]
      exact LinkFramer.inFlight_of_good hstate rfl
    · rw [(State.raise?_frame _ _).1, (State.raise?_frame _ _).1, (State.raise?_frame _ _).2.2.1,
        (State.raise?_frame _ _).2.2.1]
      exact hs

end Sys2Proof.Machine
end

section
/-! PROOFS. What each request leaves alone. -/

namespace Sys2Proof.Machine

/-! ## Requests outside the Agent and the Sense Unit -/

/-- The requests that write the Management Agent or the Sense Unit. -/
def RequestCode.agentOrSense : List RequestCode :=
  [.setNode, .writeSense, .clearInterlock, .fetchEvent, .clearFlags, .setReportMask, .resetNode]

/-- What the other requests leave alone: the link but for its five counters, the staging buffers, the timebase, the
Agent and the Sense Unit. -/
def State.keepsBlocks (s t : State) : Prop :=
  t.link.clearCounters = s.link.clearCounters ∧ t.slot = s.slot ∧ t.time = s.time ∧ t.agent = s.agent
    ∧ t.sense = s.sense

theorem State.keepsBlocks_refl (s : State) : s.keepsBlocks s := ⟨rfl, rfl, rfl, rfl, rfl⟩

theorem reqWriteOutput_keepsBlocks (q : Req) (channel : Fin 16) (s : State) :
    s.keepsBlocks (reqWriteOutput q channel s).1 := by
  unfold reqWriteOutput
  split <;> exact ⟨rfl, rfl, rfl, rfl, rfl⟩

theorem reqWriteGroup_keepsBlocks (q : Req) (channel : Fin 16) (written : Option Channel) (s : State) :
    s.keepsBlocks (reqWriteGroup q channel written s).1 := by
  unfold reqWriteGroup
  split <;> exact ⟨rfl, rfl, rfl, rfl, rfl⟩

/-- A request that changes a bank leaves the other blocks alone (R35 to R43). -/
theorem RequestCode.run_bank_keepsBlocks (q : Req) (s : State) :
    s.keepsBlocks (reqWriteEntry q s).1 ∧ s.keepsBlocks (reqTruncateBank q s).1
      ∧ s.keepsBlocks (reqClearBank q s).1 ∧ s.keepsBlocks (reqCopyBank q s).1
      ∧ s.keepsBlocks (reqCommitBank q s).1 := by
  unfold reqWriteEntry reqTruncateBank reqClearBank reqCopyBank reqCommitBank
  cases s.map.nameBank q.object true with
  | error status =>
    have hsame := s.keepsBlocks_refl
    exact ⟨hsame, hsame, hsame, hsame, hsame⟩
  | ok name =>
    refine ⟨?_, ?_, ⟨rfl, rfl, rfl, rfl, rfl⟩, ⟨rfl, rfl, rfl, rfl, rfl⟩, ?_⟩
    · dsimp only
      split_ifs
      · exact s.keepsBlocks_refl
      · exact s.keepsBlocks_refl
      all_goals split <;> exact ⟨rfl, rfl, rfl, rfl, rfl⟩
    · dsimp only
      split_ifs <;> exact ⟨rfl, rfl, rfl, rfl, rfl⟩
    · dsimp only
      split_ifs <;> exact ⟨rfl, rfl, rfl, rfl, rfl⟩

/-- A request that reads leaves the whole state alone. -/
theorem RequestCode.run_read (q : Req) (s : State) :
    (reqReadIdentity q s).1 = s ∧ (reqReadStatus q s).1 = s ∧ (reqReadNode q s).1 = s ∧ (reqReadEntry q s).1 = s
      ∧ (reqReadChannel q s).1 = s ∧ (reqReadCurve q s).1 = s ∧ (reqReadSense q s).1 = s
      ∧ (reqReadFlags q s).1 = s := by
  refine ⟨rfl, ?_, ?_, ?_, ?_, ?_, ?_, rfl⟩
  · unfold reqReadStatus; (repeat' split) <;> rfl
  · unfold reqReadNode; split <;> rfl
  · unfold reqReadEntry; (repeat' split) <;> rfl
  · unfold reqReadChannel; (repeat' split) <;> rfl
  · unfold reqReadCurve; (repeat' split) <;> rfl
  · unfold reqReadSense; (repeat' split) <;> rfl

theorem RequestCode.run_keepsBlocks {c : RequestCode} (hc : c ∉ agentOrSense) (q : Req) (s : State) :
    s.keepsBlocks (c.run q s).1 := by
  obtain ⟨hwrite, htruncate, hclear, hcopy, hcommit⟩ := RequestCode.run_bank_keepsBlocks q s
  obtain ⟨-, hstatus, hnode, hentry, hchannel, hcurve, hsense, -⟩ := RequestCode.run_read q s
  cases c <;> simp only [RequestCode.run]
  case setNode | writeSense | clearInterlock | fetchEvent | clearFlags | setReportMask | resetNode =>
    exact absurd (by decide) hc
  case readIdentity | freeze | thaw | readFlags => exact ⟨rfl, rfl, rfl, rfl, rfl⟩
  case readStatus => rw [hstatus]; exact s.keepsBlocks_refl
  case readNode => rw [hnode]; exact s.keepsBlocks_refl
  case readEntry => rw [hentry]; exact s.keepsBlocks_refl
  case readChannel => rw [hchannel]; exact s.keepsBlocks_refl
  case readCurve => rw [hcurve]; exact s.keepsBlocks_refl
  case readSense => rw [hsense]; exact s.keepsBlocks_refl
  case writeEntry => exact hwrite
  case truncateBank => exact htruncate
  case clearBank => exact hclear
  case copyBank => exact hcopy
  case commitBank => exact hcommit
  case writeChannel =>
    unfold reqWriteChannel
    split
    · exact s.keepsBlocks_refl
    · split
      · exact reqWriteOutput_keepsBlocks q _ s
      · exact reqWriteGroup_keepsBlocks q _ _ s
      · exact reqWriteGroup_keepsBlocks q _ _ s
      · exact s.keepsBlocks_refl
  case writeCurve =>
    unfold reqWriteCurve
    split
    · exact s.keepsBlocks_refl
    · split_ifs <;> exact ⟨rfl, rfl, rfl, rfl, rfl⟩
  case setOverride =>
    unfold reqSetOverride
    split
    · exact ⟨rfl, rfl, rfl, rfl, rfl⟩
    · exact ⟨rfl, rfl, rfl, rfl, rfl⟩
    · split <;> exact ⟨rfl, rfl, rfl, rfl, rfl⟩
    · exact s.keepsBlocks_refl
  case readCounters =>
    unfold reqReadCounters
    split
    · split_ifs <;> exact ⟨rfl, rfl, rfl, rfl, rfl⟩
    · split_ifs <;> exact ⟨rfl, rfl, rfl, rfl, rfl⟩
    · exact s.keepsBlocks_refl

/-! ## Every request -/

/-- What every request leaves alone: the link but for its five counters, the staging buffers and the timebase. -/
def State.keepsFraming (s t : State) : Prop :=
  t.link.clearCounters = s.link.clearCounters ∧ t.slot = s.slot ∧ t.time = s.time

theorem RequestCode.run_keepsFraming (c : RequestCode) (q : Req) (s : State) :
    s.keepsFraming (c.run q s).1 := by
  by_cases hc : c ∈ agentOrSense
  · cases c <;> simp [agentOrSense] at hc <;> simp only [RequestCode.run]
    case clearFlags | setReportMask => exact ⟨rfl, rfl, rfl⟩
    case setNode => unfold reqSetNode; split <;> exact ⟨rfl, rfl, rfl⟩
    case writeSense => unfold reqWriteSense; dsimp only; split <;> exact ⟨rfl, rfl, rfl⟩
    case clearInterlock => unfold reqClearInterlock; split_ifs <;> exact ⟨rfl, rfl, rfl⟩
    case fetchEvent => unfold reqFetchEvent; split <;> exact ⟨rfl, rfl, rfl⟩
    case resetNode => unfold reqResetNode; split <;> exact ⟨rfl, rfl, rfl⟩
  · obtain ⟨hlink, hslot, htime, -, -⟩ := RequestCode.run_keepsBlocks hc q s
    exact ⟨hlink, hslot, htime⟩

/-! ## How the Agent takes a request -/

/-- A handed request: what it can do to the state (R146 to R149). -/
theorem State.agentRequest_cases (s : State) (c : RequestCode) (q : Req) :
    s.agentRequest c q = s ∨ s.agentRequest c q = s.setBadBroadcast
      ∨ s.agentRequest c q = (c.run q s).1
      ∨ s.agentRequest c q = (c.run q s).1.writeReply c.byte q (c.run q s).2 := by
  unfold State.agentRequest
  split
  · exact .inr (.inr (.inr rfl))
  · split
    · split
      · exact .inr (.inr (.inl rfl))
      · exact .inr (.inl rfl)
    · exact .inl rfl

/-- A handed cell: what it can do to the state. -/
theorem State.agentCell_cases (s : State) (kind code : Byte) (q : Req) :
    s.agentCell kind code q = s ∨ s.agentCell kind code q = s.setBadBroadcast
      ∨ s.agentCell kind code q = s.writeReply code q (answer q .unknown)
      ∨ ∃ c, s.agentCell kind code q = s.agentRequest c q := by
  unfold State.agentCell
  split
  · split
    · next c hc => exact .inr (.inr (.inr ⟨c, rfl⟩))
    · unfold State.agentUnknown
      split
      · exact .inr (.inr (.inl rfl))
      · split
        · exact .inr (.inl rfl)
        · exact .inl rfl
  · exact .inl rfl

end Sys2Proof.Machine
end

section
/-! PROOFS. Every effect keeps the framing in order (O7). -/

namespace Sys2Proof.Machine

/-! ## The cell and the Agent -/

/-- A reply takes the place of a whole cell (R147). -/
theorem LinkFramer.inOrder_setCell {l : LinkFramer} (h : l.inOrder) {slots : Nat} (hf : l.frame = .good 24 slots)
    {bytes : List Byte} (hb : bytes.length = 16) : (l.setCell bytes).inOrder := by
  obtain ⟨hframe, hdown, hrest⟩ := h
  refine ⟨?_, fun hd => ?_, hrest⟩
  · simp only [LinkFramer.frameInOrder, hf] at hframe
    obtain ⟨h8, hend, h16, h512, hdelay, -⟩ := hframe
    simp only [LinkFramer.frameInOrder, LinkFramer.frame_setCell, hf, LinkFramer.delay_setCell,
      replaceLast_length, LinkFramer.cell_setCell, hb]
    exact ⟨h8, hend, h16, h512, hdelay, fun _ => rfl⟩
  · have hno := (hdown hd).1
    rw [hf] at hno
    cases hno

/-- In order, with the last symbol of a cell just arrived in a frame in flight. -/
def State.framingAtCell (s : State) : Prop :=
  s.framingInOrder ∧ s.link.state = .locked ∧ ∃ slots, s.link.frame = .good 24 slots

theorem State.writeReply_framing {s : State} (h : s.framingAtCell) (code : Byte) (q : Req) (r : Reply) :
    (s.writeReply code q r).framingInOrder := by
  obtain ⟨⟨hl, hs, -⟩, hlocked, slots, hf⟩ := h
  have hlen := replyBytes_length code q r
  unfold State.writeReply
  generalize replyBytes code q r = bytes at hlen ⊢
  exact ⟨LinkFramer.inOrder_setCell hl hf hlen, hs, fun _ => LinkFramer.inFlight_of_good hlocked hf⟩

theorem RequestCode.run_framingAtCell {s : State} (h : s.framingAtCell) (c : RequestCode) (q : Req) :
    (c.run q s).1.framingAtCell := by
  obtain ⟨⟨hl, hs, -⟩, hlocked, slots, hf⟩ := h
  obtain ⟨elink, eslot, -⟩ := c.run_keepsFraming q s
  obtain ⟨-, -, eframe, -, -, -, estate, -⟩ := (c.run_outcomeShape q s).1
  have hl' : (c.run q s).1.link.clearCounters.inOrder := elink ▸ hl
  have hs' : (c.run q s).1.slot.inOrder (c.run q s).1.link.clearCounters := by rw [elink, eslot]; exact hs
  have hlocked' := estate.trans hlocked
  have hf' := eframe.trans hf
  exact ⟨⟨hl', hs', fun _ => LinkFramer.inFlight_of_good hlocked' hf'⟩, hlocked', slots, hf'⟩

theorem State.agentRequest_framing {s : State} (h : s.framingAtCell) (c : RequestCode) (q : Req) :
    (s.agentRequest c q).framingInOrder := by
  rcases s.agentRequest_cases c q with e | e | e | e <;> rw [e]
  · exact h.1
  · exact State.framingInOrder_congr h.1 rfl rfl rfl
  · exact (RequestCode.run_framingAtCell h c q).1
  · exact State.writeReply_framing (RequestCode.run_framingAtCell h c q) _ q _

theorem State.agentCell_framing {s : State} (h : s.framingAtCell) (kind code : Byte) (q : Req) :
    (s.agentCell kind code q).framingInOrder := by
  rcases s.agentCell_cases kind code q with e | e | e | ⟨c, e⟩ <;> rw [e]
  · exact h.1
  · exact State.framingInOrder_congr h.1 rfl rfl rfl
  · exact State.writeReply_framing h _ q _
  · exact State.agentRequest_framing h c q

theorem State.request_framing {s : State} (h : s.framingInOrder) (c : RequestCode) (q : Req) :
    (s.request c q).framingInOrder := by
  unfold State.request
  split
  · next hh =>
    have hcell : s.cellHanded := by
      by_contra hn
      simp [State.handsCell_of_not hn] at hh
    obtain ⟨hlocked, hf, -⟩ := hcell
    exact State.agentRequest_framing ⟨h, hlocked, hf⟩ c q
  · exact h

/-! ## Bytes of a frame in flight -/

/-- What the slot actions leave alone: the link, the buffers' states and the acting frame (R59 to R66). -/
theorem State.perform_framing (s : State) (entry : Entry) (received sent : Byte) :
    (s.perform entry received sent).1.link = s.link
      ∧ (s.perform entry received sent).1.slot.x.state = s.slot.x.state
      ∧ (s.perform entry received sent).1.slot.y.state = s.slot.y.state
      ∧ (s.perform entry received sent).1.slot.acting = s.slot.acting := by
  refine ⟨(s.perform_frame entry received sent).1, ?_⟩
  unfold State.perform
  split
  · simp [SlotEngine.tap]
  · unfold State.afterInsert
    split <;> exact ⟨rfl, rfl, rfl⟩

theorem State.walkSlot_framing (number : Nat) (received : Byte) (entries : List Entry) :
    ∀ (s : State) (sent : Byte), (State.walkSlot number received entries s sent).1.link = s.link
      ∧ (State.walkSlot number received entries s sent).1.slot.x.state = s.slot.x.state
      ∧ (State.walkSlot number received entries s sent).1.slot.y.state = s.slot.y.state
      ∧ (State.walkSlot number received entries s sent).1.slot.acting = s.slot.acting := by
  induction entries with
  | nil => exact fun s sent => ⟨rfl, rfl, rfl, rfl⟩
  | cons entry rest ih =>
    intro s sent
    unfold State.walkSlot
    split
    · obtain ⟨h1, h2, h3, h4⟩ := s.perform_framing entry received sent
      obtain ⟨i1, i2, i3, i4⟩ := ih
        { (s.perform entry received sent).1 with
          slot := { (s.perform entry received sent).1.slot with
            place := (s.perform entry received sent).1.slot.place + 1 } }
        (s.perform entry received sent).2
      exact ⟨i1.trans h1, i2.trans h2, i3.trans h3, i4.trans h4⟩
    · exact ⟨rfl, rfl, rfl, rfl⟩

theorem State.slotActions_framing (s : State) (number : Nat) (received : Byte) :
    (s.slotActions number received).1.link = s.link
      ∧ (s.slotActions number received).1.slot.x.state = s.slot.x.state
      ∧ (s.slotActions number received).1.slot.y.state = s.slot.y.state
      ∧ (s.slotActions number received).1.slot.acting = s.slot.acting := by
  unfold State.slotActions
  split
  · exact State.walkSlot_framing number received _ s received
  · exact ⟨rfl, rfl, rfl, rfl⟩

/-- The link after a slot byte (R14, R18). -/
theorem State.link_slotByte (s : State) (b : Byte) (place slots : Nat) :
    (s.slotByte b place slots).link =
      { s.link with
        frame := .good place slots, delay := s.link.delay ++ [.data (s.slotActions (place - 25) b).2],
        receivedCheck := crc16Byte s.link.receivedCheck b,
        sentCheck := crc16Byte s.link.sentCheck (s.slotActions (place - 25) b).2 } := by
  simp only [State.slotByte, (s.slotActions_framing _ _).1, LinkFramer.at, LinkFramer.put]

theorem State.cellLast_framing {s : State} (h : s.framingInOrder) (hlocked : s.link.state = .locked) {slots : Nat}
    (hf : s.link.frame = .good 23 slots) (hcell : s.link.cell.length = 15) (b : Byte) :
    (s.cellLast b slots).framingInOrder := by
  have harrived : State.framingInOrder { s with link := s.link.cellArrived b slots } :=
    ⟨LinkFramer.inOrder_advance h.1 hlocked hf (by omega) (by simp [hcell]) _ _ _ _,
      SlotEngine.inOrder_of_inFlight h.2.1 (LinkFramer.inFlight_of_good hlocked rfl) rfl rfl rfl,
      fun _ => LinkFramer.inFlight_of_good hlocked rfl⟩
  unfold State.cellLast
  dsimp only
  split
  · exact harrived
  · split
    · exact State.agentCell_framing ⟨harrived, hlocked, slots, rfl⟩ _ _ _
    · exact harrived

theorem State.slotByte_framing {s : State} (h : s.framingInOrder) (hlocked : s.link.state = .locked)
    {place slots : Nat} (hf : s.link.frame = .good place slots) (h24 : 24 ≤ place) (hend : place < 25 + slots)
    (hcell : s.link.cell.length = 16) (b : Byte) : (s.slotByte b (place + 1) slots).framingInOrder := by
  have elink := s.link_slotByte b (place + 1) slots
  obtain ⟨-, hx, hy, ha⟩ := s.slotActions_framing (place + 1 - 25) b
  have hflight : (s.slotByte b (place + 1) slots).link.inFlight = true := by
    rw [elink]
    exact LinkFramer.inFlight_of_good hlocked rfl
  refine ⟨?_, SlotEngine.inOrder_of_inFlight h.2.1 hflight hx hy ha, fun _ => hflight⟩
  rw [elink]
  exact LinkFramer.inOrder_advance h.1 hlocked hf hend (by omega) _ _ _ _

theorem State.flightByte_framing {s : State} (h : s.framingInOrder) (hlocked : s.link.state = .locked)
    {place slots : Nat} (hf : s.link.frame = .good place slots) (b : Byte) :
    (s.flightByte b (place + 1) slots).framingInOrder := by
  have hframe := h.1.1
  simp only [LinkFramer.frameInOrder, hf] at hframe
  obtain ⟨h8, hend, -, -, -, hcell⟩ := hframe
  replace hcell := hcell hlocked
  have hflight : ∀ l : LinkFramer, l.state = s.link.state → l.frame = .good (place + 1) slots →
      s.slot.inOrder l ∧ (s.agent.resetScope ≠ none → l.inFlight = true) := fun l hs hf' =>
    have hfl := LinkFramer.inFlight_of_good (hs.trans hlocked) hf'
    ⟨SlotEngine.inOrder_of_inFlight h.2.1 hfl rfl rfl rfl, fun _ => hfl⟩
  by_cases hc : place + 1 < 24
  · rw [State.flightByte_of_cell s b slots hc]
    exact ⟨LinkFramer.inOrder_advance h.1 hlocked hf (by omega) (by simp; omega) _ _ _ _, hflight _ rfl rfl⟩
  by_cases hl : place = 23
  · subst hl
    rw [State.flightByte_of_cellLast]
    exact State.cellLast_framing h hlocked hf hcell b
  by_cases hs : place + 1 < 25 + slots
  · rw [State.flightByte_of_slot s b (by omega) hs]
    exact State.slotByte_framing h hlocked hf (by omega) (by omega) (by omega) b
  by_cases hk : place + 1 = 25 + slots
  · rw [show s.flightByte b (place + 1) slots = s.checkByte b (place + 1) slots by
      rw [hk, State.flightByte_of_check]]
    exact ⟨LinkFramer.inOrder_advance (cell := s.link.cell) h.1 hlocked hf (by omega) (by omega) _ _ _ _,
      hflight _ rfl rfl⟩
  · rw [State.flightByte_of_end s b (by omega)]
    have hup := LinkFramer.upInOrder_of_inOrder h.1 (by simp [hlocked])
    exact State.framingInOrder_of_settled (State.endChecked_settled hup h.2.1 hlocked b)

/-! ## Symbols -/

/-- A symbol that is put into the delay line alone. -/
theorem State.put_framing {s : State} (h : s.framingInOrder) (hd : s.link.state ≠ .down) (sym : Sym) :
    State.framingInOrder { s with link := s.link.put sym } :=
  ⟨LinkFramer.inOrder_put h.1 hd sym, h.2⟩

theorem State.headerByte_framing {s : State} (h : s.settled) (hd : s.link.state ≠ .down)
    (hf : s.link.frame = .header) (hl : s.link.header.length < 7) (b : Byte) : (s.headerByte b).settled := by
  have hup := LinkFramer.upInOrder_of_inOrder h.1 hd
  refine ⟨LinkFramer.inOrder_of_up hup ?_, h.2⟩
  have hframe := h.1.1
  simp only [LinkFramer.frameInOrder, hf] at hframe
  simp [LinkFramer.frameInOrder, State.headerByte, hf]
  omega

theorem State.headerEighth_framing {s : State} (h : s.settled) (hd : s.link.state ≠ .down)
    (hf : s.link.frame = .header) (hl : 7 ≤ s.link.header.length) (b : Byte) :
    (s.headerEighth b).framingInOrder := by
  have hup := LinkFramer.upInOrder_of_inOrder h.1 hd
  have hframe := h.1.1
  simp only [LinkFramer.frameInOrder, hf] at hframe
  unfold State.headerEighth
  dsimp only
  split
  · next hg =>
    obtain ⟨h16, h512, -⟩ := goodHeader_bounds _ _ hg
    have hdelay : 9 ≤ (s.link.delay ++ [Sym.data b]).length := by simp; omega
    exact State.takeHeader_framing (s := s.headerByte b) hup h.2.1 h.2.2 hdelay h16 h512
  · exact State.framingInOrder_of_settled (State.badHeader_settled hup h.2.1 h.2.2)

theorem State.betweenSymbol_framing {s : State} (h : s.framingInOrder) (hd : s.link.state ≠ .down) (sym : Sym) :
    (s.betweenSymbol sym).framingInOrder :=
  State.put_framing h hd _

/-- Outside LOCKED a frame with a good header runs on or ends (R9, R10). -/
theorem State.passByte_framing {s : State} (h : s.framingInOrder) (hd : s.link.state ≠ .down)
    (hl : s.link.state ≠ .locked) {place slots : Nat} (hf : s.link.frame = .good place slots) (b : Byte) :
    (s.passByte b (place + 1) slots).framingInOrder := by
  have hup := LinkFramer.upInOrder_of_inOrder h.1 hd
  have hset := State.settled_of_framingInOrder h (LinkFramer.inFlight_of_not_locked hl)
  have hframe := h.1.1
  simp only [LinkFramer.frameInOrder, hf] at hframe
  unfold State.passByte
  dsimp only
  split
  · refine State.framingInOrder_of_settled ⟨LinkFramer.inOrder_of_up hup ?_, hset.2⟩
    simp only [LinkFramer.frameInOrder, LinkFramer.frame_at]
    refine ⟨by omega, by omega, by omega, by omega, by simp; omega, fun hh => absurd hh hl⟩
  · exact State.framingInOrder_of_settled ⟨LinkFramer.inOrder_of_up hup trivial, hset.2⟩

theorem State.receiveByte_framing {s : State} (h : s.framingInOrder) (b : Byte) :
    (s.receiveByte b).framingInOrder := by
  by_cases hd : s.link.state = .down
  · rw [State.receiveByte_of_down hd]
    exact h
  cases hf : s.link.frame with
  | between =>
    rw [State.receiveByte_of_between hd hf]
    exact State.betweenSymbol_framing h hd _
  | bad =>
    rw [State.receiveByte_of_bad hd hf]
    exact State.put_framing h hd _
  | header =>
    have hset := State.settled_of_framingInOrder h (LinkFramer.inFlight_of_not_good (by simp [hf]))
    by_cases hl : s.link.header.length < 7
    · rw [State.receiveByte_of_header hd hf hl]
      exact State.framingInOrder_of_settled (State.headerByte_framing hset hd hf hl b)
    · rw [State.receiveByte_of_seven hd hf (by omega)]
      exact State.headerEighth_framing hset hd hf (by omega) b
  | good place slots =>
    by_cases hl : s.link.state = .locked
    · rw [State.receiveByte_of_locked hl hf]
      exact State.flightByte_framing h hl hf b
    · rw [State.receiveByte_of_pass hd hl hf]
      exact State.passByte_framing h hd hl hf b

theorem State.receiveEnd_framing {s : State} (h : s.framingInOrder) (sym : Sym) :
    (s.receiveEnd sym).framingInOrder := by
  by_cases hd : s.link.state = .down
  · rw [State.receiveEnd_of_down hd]
    exact h
  have hup := LinkFramer.upInOrder_of_inOrder h.1 hd
  cases hf : s.link.frame with
  | between =>
    rw [State.receiveEnd_of_between hd hf]
    exact State.betweenSymbol_framing h hd _
  | bad =>
    rw [State.receiveEnd_of_bad hd hf]
    exact State.put_framing h hd _
  | header =>
    have hset := State.settled_of_framingInOrder h (LinkFramer.inFlight_of_not_good (by simp [hf]))
    rw [State.receiveEnd_of_header hd hf]
    exact State.framingInOrder_of_settled (State.badHeader_settled hup hset.2.1 hset.2.2)
  | good place slots =>
    by_cases hl : s.link.state = .locked
    · rw [State.receiveEnd_of_locked hl hf]
      exact State.framingInOrder_of_settled (State.truncate_settled hup h.2.1)
    · have hset := State.settled_of_framingInOrder h (LinkFramer.inFlight_of_not_locked hl)
      rw [State.receiveEnd_of_pass hd hl hf]
      exact State.framingInOrder_of_settled ⟨LinkFramer.inOrder_of_up hup trivial, hset.2⟩

/-- A marker leaves no frame in flight and no reset pending (R4, R166). -/
theorem State.endForMarker_settled {s : State} (h : s.framingInOrder) : s.endForMarker.settled := by
  cases hflight : s.link.inFlight with
  | true =>
    rw [State.endForMarker_of_inFlight hflight]
    have hlocked := (s.link.inFlight_iff.1 hflight).1
    exact State.truncate_settled (LinkFramer.upInOrder_of_inOrder h.1 (by simp [hlocked])) h.2.1
  | false =>
    have hset := State.settled_of_framingInOrder h hflight
    by_cases hf : s.link.frame = .header
    · rw [State.endForMarker_of_header hf]
      have hd : s.link.state ≠ .down := fun hd => by simp [(h.1.2.1 hd).1] at hf
      exact State.badHeader_settled (LinkFramer.upInOrder_of_inOrder h.1 hd) hset.2.1 hset.2.2
    · rw [State.endForMarker_of_rest hf hflight]
      exact hset

theorem State.beginFrame_settled {s : State} (h : s.settled) : s.beginFrame.settled := by
  obtain ⟨⟨-, hdown, hpos, hbad, hzero⟩, ⟨hact, hx, hy, hpend, hfree⟩, hr⟩ := h
  have hframe : s.beginFrame.link.frameInOrder := by simp [State.beginFrame, LinkFramer.frameInOrder]
  unfold State.beginFrame at hframe ⊢
  by_cases hd : s.link.state = .down
  · simp only [if_pos hd] at hframe ⊢
    exact ⟨LinkFramer.inOrder_of_up ⟨nofun, hpos, hbad, fun _ => hzero (by simp [hd])⟩ hframe,
      ⟨hact, hx, hy, hpend, fun _ => hfree (by simp [hd])⟩, hr⟩
  · simp only [if_neg hd] at hframe ⊢
    exact ⟨LinkFramer.inOrder_of_up ⟨hd, hpos, hbad, hzero⟩ hframe, ⟨hact, hx, hy, hpend, hfree⟩, hr⟩

/-! ## The frame timeout -/

theorem LinkFramer.inOrder_goDown {l : LinkFramer} (h : l.inOrder) (truncated : Bool) :
    (l.goDown truncated).inOrder :=
  ⟨trivial, fun _ => ⟨rfl, rfl, rfl⟩, h.2.2.1, Nat.zero_lt_succ 2, fun _ => rfl⟩

/-- LINK_STATE and the end of the frame in flight, in either order. -/
theorem State.unlockForTimeout_settled {s : State} (h : s.framingInOrder) (hlocked : s.link.state = .locked) :
    s.unlockForTimeout.settled := by
  have ended : ∀ t : State, t.link = s.link → t.slot = s.slot → t.agent.resetScope = s.agent.resetScope →
      State.settled (if t.link.inFlight then t.truncate else t) := by
    intro t hl hs hr
    have ht := State.framingInOrder_congr h hl hs hr
    cases hf : t.link.inFlight with
    | true => exact State.truncate_settled (LinkFramer.upInOrder_of_inOrder ht.1 (by simp [hl, hlocked])) ht.2.1
    | false => exact State.settled_of_framingInOrder ht hf
  have raised : ∀ {t : State} (e : Event), t.settled → (t.raise e).settled := fun e ht =>
    ⟨ht.1, ht.2.1, (Agent.resetScope_take _ _ _).trans ht.2.2⟩
  unfold State.unlockForTimeout
  dsimp only
  split
  · exact ended _ rfl rfl (Agent.resetScope_take _ _ _)
  · split
    · exact ended _ rfl rfl (Agent.resetScope_take _ _ _)
    · exact raised _ (ended { s with choices := s.choices + 1 } rfl rfl rfl)

theorem State.expire_framing {s : State} (h : s.framingInOrder) : s.expire.framingInOrder := by
  unfold State.expire
  split
  · exact h
  · next hlocked =>
    obtain ⟨hl, hs, hr⟩ := State.unlockForTimeout_settled h hlocked
    exact State.framingInOrder_of_settled
      ⟨LinkFramer.inOrder_goDown hl _, SlotEngine.freeBoth_atRest hs.1 _, hr⟩
  all_goals
    next hstate =>
    have hset := State.settled_of_framingInOrder h (LinkFramer.inFlight_of_not_locked (by simp [hstate]))
    obtain ⟨hl, ⟨hact, hx, hy, hpend, hfree⟩, hr⟩ := hset
    have hboth := hfree (by simp [hstate])
    exact State.framingInOrder_of_settled
      ⟨LinkFramer.inOrder_goDown hl _, ⟨hact, hx, hy, hpend, fun _ => hboth⟩, hr⟩

/-! ## Every effect -/

/-- A step operation takes the PENDING buffer and may raise FALLBACK; the link, the Map Store and the Sense Unit stay
(R74, R92). -/
theorem State.stepOperation_frame (s : State) :
    s.stepOperation.link = s.link ∧ s.stepOperation.slot = s.slot.takePending
      ∧ s.stepOperation.map = s.map ∧ s.stepOperation.sense = s.sense
      ∧ ∃ e : Option Event, s.stepOperation.agent = (s.raise? e).agent := by
  unfold State.stepOperation
  rw [State.stepTail_frame, State.stepFallback_eq, State.stepConsume_eq]
  refine ⟨rfl, rfl, rfl, rfl, ?_⟩
  dsimp only
  split
  · exact ⟨none, rfl⟩
  · exact ⟨some _, rfl⟩

theorem State.onGenerator_frame (s : State) (channel : Fin 16) (f : Generator → Mode → Generator) :
    s.onGenerator channel f = { s with generators := (s.onGenerator channel f).generators } := by
  unfold State.onGenerator
  split <;> rfl

theorem State.framingInOrder_of_effect (s t : State) (he : s.Effect t) (h : s.framingInOrder) :
    t.framingInOrder := by
  cases he with
  | restart sns => exact State.framingInOrder_powerOn sns
  | marker sns => exact State.framingInOrder_of_settled (State.beginFrame_settled (State.endForMarker_settled h))
  | byte b => exact State.receiveByte_framing h b
  | lastByte b sns => exact State.receiveByte_framing (s := s.setPins sns) h b
  | earlyEnd sym sns => exact State.receiveEnd_framing (s := s.setPins sns) h sym
  | send =>
    obtain ⟨delay, abortNext, linkOut, e⟩ := s.link.send_frame
    refine ⟨LinkFramer.inOrder_send h.1, ?_⟩
    rw [e]
    exact h.2
  | expiry sns _ => exact State.expire_framing h
  | noExpiry sns _ => exact h
  | baseTick sns =>
    rw [State.baseTick_eq]
    refine ⟨LinkFramer.inOrder_countTimeout h.1, h.2.1, ?_⟩
    dsimp only
    rw [(Agent.foldl_take_frame _ _ _).2.2]
    exact h.2.2
  | stepTick _ =>
    obtain ⟨elink, eslot, -, -, e, eagent⟩ := s.stepOperation_frame
    have ereset : s.stepOperation.agent.resetScope = s.agent.resetScope := by
      obtain ⟨-, -, -, -, -, -, -, -, -, hr, -⟩ := s.raise?_frame e
      rw [eagent, hr]
    unfold State.framingInOrder
    dsimp only
    rw [elink, eslot, ereset]
    exact ⟨h.1, SlotEngine.takePending_inOrder h.2.1, h.2.2⟩
  | noStepTick _ => exact h
  | periodEnd channel | dutyEnd channel | pwmClock channel =>
    rw [State.onGenerator_frame]
    exact h
  | copyEntry | examineEntry => exact h
  | copyDone part | commitDone part =>
    obtain ⟨-, elink, eslot, -, -, -, -, -, -, ereset, -⟩ := s.complete_spec _ part
    exact State.framingInOrder_congr h elink eslot ereset
  | request c q => exact State.request_framing h c q

/-- Settles O7: each effect keeps the framing in order, and the waiting commands do not bear on it. -/
theorem framingStaysInOrder : Obligations.FramingStaysInOrder := by
  unfold Obligations.FramingStaysInOrder
  exact step_keeps (fun _ _ h => h) State.framingInOrder_of_effect

end Sys2Proof.Machine
end

section
/-! PROOFS. The heartbeat watch, the timebase, the event queue with the stale parameters, and the Run Counts stay in
order (R24 to R26, R80, R128, R129, R172). -/

namespace Sys2Proof.Machine

/-! ## Block by block -/

/-- The Agent's part: the queue's room (R172) and the pairing of the stale parameters (R26). -/
def Agent.inOrder (a : Agent) : Prop :=
  a.queue.length ≤ 32 ∧ (a.params.staleLimit = 0 ∨ a.params.staleWarn ≤ a.params.staleLimit)

/-- The Sense Unit's part: an unfiltered line counts no run (R129). -/
def SenseUnit.runsInOrder (u : SenseUnit) : Prop :=
  ∀ i : Fin 8, u.lines[i].filterOn = false → u.lines[i].run = 0

theorem State.countsInOrder_iff (s : State) :
    s.countsInOrder ↔ s.link.watchInOrder ∧ s.time.inOrder ∧ s.agent.inOrder ∧ s.sense.runsInOrder := by
  simp only [State.countsInOrder, Agent.inOrder, SenseUnit.runsInOrder, and_assoc]

theorem Agent.inOrder_take {a : Agent} (h : a.inOrder) (e : Event) (stamp : BitVec 16) :
    (a.take e stamp).inOrder := by
  refine ⟨Agent.length_queue_take a e stamp h.1, ?_⟩
  rw [Agent.params_take]
  exact h.2

/-! ## Events -/

theorem State.countsInOrder_raise {s : State} (h : s.countsInOrder) (e : Event) : (s.raise e).countsInOrder := by
  obtain ⟨hlink, htime, hagent, hsense⟩ := s.countsInOrder_iff.1 h
  exact (State.countsInOrder_iff _).2 ⟨hlink, htime, Agent.inOrder_take hagent _ _, hsense⟩

theorem State.countsInOrder_raiseAll (es : List Event) : ∀ {s : State}, s.countsInOrder →
    (s.raiseAll es).countsInOrder := by
  induction es with
  | nil => exact id
  | cons e es ih => exact fun h => ih (State.countsInOrder_raise h e)

theorem State.countsInOrder_raise? {s : State} (h : s.countsInOrder) (e : Option Event) :
    (s.raise? e).countsInOrder :=
  State.countsInOrder_raiseAll e.toList h

theorem State.countsInOrder_raiseEither {s : State} (h : s.countsInOrder) (a b : Option Event) :
    (s.raiseEither a b).countsInOrder := by
  obtain ⟨es, e, -, -⟩ := s.raiseEither_eq a b
  rw [e]
  exact State.countsInOrder_raiseAll es h

/-! ## The end of a frame -/

/-- The watch as it begins: nothing counted, stage 0 and no cause (R11, R26). -/
theorem LinkFramer.watchInOrder_of_zero {l : LinkFramer} (hcount : l.staleCount = 0) (hstage : l.staleStage = 0)
    (hcause : l.staleCause = false) : l.watchInOrder :=
  ⟨by simp [hcount], by simp [hstage, hcause], fun _ => ⟨hcount, hstage⟩⟩

theorem LinkFramer.watchInOrder_nodeReset {l : LinkFramer} (h : l.watchInOrder) (scope : Scope) :
    (l.nodeReset scope).watchInOrder := by
  cases scope
  case node => exact LinkFramer.watchInOrder_of_zero rfl rfl rfl
  all_goals exact h

theorem NodeParams.stale_default : NodeParams.default.staleWarn ≤ NodeParams.default.staleLimit := by
  decide

theorem Agent.inOrder_nodeReset {a : Agent} (h : a.inOrder) (scope : Scope) : (a.nodeReset scope).inOrder := by
  cases scope
  case events => exact ⟨Nat.zero_le _, h.2⟩
  case node => exact ⟨Nat.zero_le _, .inr NodeParams.stale_default⟩
  all_goals exact h

theorem SenseUnit.runsInOrder_atReset (sns : Byte) : (SenseUnit.atReset sns).runsInOrder := by
  intro i _
  rw [SenseUnit.line_atReset]
  rfl

theorem SenseUnit.runsInOrder_nodeReset {u : SenseUnit} (h : u.runsInOrder) (scope : Scope) :
    (u.nodeReset scope).runsInOrder := by
  cases scope
  case node => exact SenseUnit.runsInOrder_atReset u.pins
  all_goals exact h

theorem State.countsInOrder_applyReset {s : State} (h : s.countsInOrder) (scope : Scope) :
    (s.applyReset scope).countsInOrder := by
  obtain ⟨hlink, htime, hagent, hsense⟩ := s.countsInOrder_iff.1 h
  unfold State.applyReset
  apply State.countsInOrder_raise?
  exact (State.countsInOrder_iff _).2
    ⟨LinkFramer.watchInOrder_nodeReset hlink scope, htime, Agent.inOrder_nodeReset hagent scope,
      SenseUnit.runsInOrder_nodeReset hsense scope⟩

theorem State.countsInOrder_endFrame {s : State} (h : s.countsInOrder) : s.endFrame.countsInOrder := by
  unfold State.endFrame
  split
  · exact h
  · exact State.countsInOrder_applyReset h _

theorem State.countsInOrder_truncate {s : State} (h : s.countsInOrder) : s.truncate.countsInOrder :=
  State.countsInOrder_endFrame h

theorem State.countsInOrder_endChecked {s : State} (h : s.countsInOrder) (b : Byte) :
    (s.endChecked b).countsInOrder := by
  by_cases hc : word16 s.link.checkByte b = s.link.receivedCheck
  · rw [State.endChecked_of_correct hc]
    exact State.countsInOrder_endFrame h
  · rw [State.endChecked_of_incorrect hc]
    exact State.countsInOrder_endFrame h

/-! ## Headers -/

theorem State.countsInOrder_badHeader {s : State} (h : s.countsInOrder) : s.badHeader.countsInOrder := by
  unfold State.badHeader
  split
  · exact h
  · exact h
  · exact h
  · dsimp only
    split
    · exact State.countsInOrder_raise h _
    · exact h

/-- The watch keeps its count within a byte, and its cause in step with its stage (R24, R25). -/
theorem LinkFramer.watchInOrder_watch {l : LinkFramer} (h : l.watchInOrder) (p : NodeParams) (heartbeat : Byte) :
    (l.watch p heartbeat).1.watchInOrder := by
  obtain ⟨hcount, hcause, hnone⟩ := h
  rcases l.watch_cases p heartbeat with
    ⟨-, e⟩ | ⟨hr, -, e⟩ | ⟨hr, hwarn, e⟩ | ⟨hr, -, -, e⟩ | ⟨-, h0, e⟩ | ⟨-, -, e⟩ <;>
    rw [e]
  · exact ⟨hcount, hcause, nofun⟩
  · exact ⟨Nat.min_le_right _ _, by simp, fun hh => by simp [hr] at hh⟩
  · have hno : l.staleCause = false := by
      rw [Bool.eq_false_iff, Ne, hcause, hwarn.2.2.2.2]
      decide
    exact ⟨Nat.min_le_right _ _, by simp [hno], fun hh => by simp [hr] at hh⟩
  · exact ⟨Nat.min_le_right _ _, hcause, fun hh => by simp [hr] at hh⟩
  · exact ⟨Nat.zero_le _, hcause, nofun⟩
  · exact LinkFramer.watchInOrder_of_zero rfl rfl rfl

theorem State.countsInOrder_boundary {s : State} (hs : s.countsInOrder) (h : Header) :
    (s.boundary h).countsInOrder := by
  unfold State.boundary
  apply State.countsInOrder_raiseEither
  exact ⟨LinkFramer.watchInOrder_watch hs.1 s.agent.params h.heartbeat, hs.2⟩

theorem State.countsInOrder_afterLockedHeader {s : State} (hs : s.countsInOrder) (h : Header) :
    (s.afterLockedHeader h).countsInOrder := by
  unfold State.afterLockedHeader
  rw [State.decideActing_eq]
  split
  · exact State.countsInOrder_boundary hs h
  · exact hs

theorem State.countsInOrder_takeHeader {s : State} (hs : s.countsInOrder) (h : Header) :
    (s.takeHeader h).countsInOrder := by
  unfold State.takeHeader
  split
  · exact hs
  · exact hs
  · split
    · unfold State.enterLocked
      apply State.countsInOrder_afterLockedHeader
      apply State.countsInOrder_raise
      exact ⟨LinkFramer.watchInOrder_of_zero rfl rfl rfl, hs.2⟩
    · exact hs
  · unfold State.lockedHeader
    apply State.countsInOrder_afterLockedHeader
    apply State.countsInOrder_raise?
    apply State.countsInOrder_raise?
    exact hs

/-! ## The cell and the Agent -/

/-- A request that writes the Agent keeps the queue's room and the pairing (R26, R154, R161). -/
theorem NodeParams.write_stale {p p' : NodeParams} (h : p.staleLimit = 0 ∨ p.staleWarn ≤ p.staleLimit)
    {object value : Byte} (hw : p.write object value = some p') :
    p'.staleLimit = 0 ∨ p'.staleWarn ≤ p'.staleLimit := by
  unfold NodeParams.write at hw
  split at hw
  · obtain ⟨policy, -, rfl⟩ := Option.map_eq_some_iff.1 hw
    exact h
  · cases hw
    exact h
  · split_ifs at hw with hc
    cases hw
    exact or_iff_not_imp_left.2 fun h0 => BitVec.not_lt.1 fun hlt => hc ⟨h0, hlt⟩
  · split_ifs at hw with hc
    cases hw
    exact .inr (BitVec.not_lt.1 hc)
  · obtain ⟨passive, -, rfl⟩ := Option.map_eq_some_iff.1 hw
    exact h
  · cases hw

/-- A line that is written unfiltered counts no run (R129, R143). -/
theorem SenseLine.write_run {l l' : SenseLine} (h : l.filterOn = false → l.run = 0) {a : Args}
    (hw : l.write a = some l') (hoff : l'.filterOn = false) : l'.run = 0 := by
  unfold SenseLine.write at hw
  split at hw
  · cases hw
    dsimp only at hoff ⊢
    split
    · next he => exact h (he.trans hoff)
    · rfl
  · cases hw

/-- A replaced line that is in order keeps every Run Count in order. -/
theorem SenseUnit.runsInOrder_setLine {u : SenseUnit} (h : u.runsInOrder) (line : Fin 8) {l : SenseLine}
    (hl : l.filterOn = false → l.run = 0) : (u.setLine line l).runsInOrder := by
  intro i
  by_cases hi : line.val = i.val
  · simpa [SenseUnit.setLine, Vector.getElem_set, hi] using hl
  · simpa [SenseUnit.setLine, Vector.getElem_set, hi] using h i

theorem reqWriteSense_runsInOrder (q : Req) {s : State} (h : s.countsInOrder) :
    (reqWriteSense q s).1.countsInOrder := by
  obtain ⟨hlink, htime, hagent, hsense⟩ := s.countsInOrder_iff.1 h
  unfold reqWriteSense
  dsimp only
  split
  · exact h
  · next sense hw =>
    refine (State.countsInOrder_iff _).2 ⟨hlink, htime, hagent, ?_⟩
    split at hw
    · next line _ =>
      obtain ⟨l, hl, rfl⟩ := Option.map_eq_some_iff.1 hw
      exact SenseUnit.runsInOrder_setLine hsense line (SenseLine.write_run (hsense line) hl)
    · split_ifs at hw
      unfold SenseUnit.writeGlobal at hw
      split at hw
      · cases hw
        exact hsense
      · cases hw

theorem RequestCode.run_countsInOrder (c : RequestCode) (q : Req) {s : State} (h : s.countsInOrder) :
    (c.run q s).1.countsInOrder := by
  obtain ⟨hlink, htime, hagent, hsense⟩ := s.countsInOrder_iff.1 h
  by_cases hc : c ∈ agentOrSense
  · cases c <;> simp [agentOrSense] at hc <;> simp only [RequestCode.run]
    case clearFlags | setReportMask => exact h
    case setNode =>
      unfold reqSetNode
      split
      · exact h
      · next params hw =>
        exact (State.countsInOrder_iff _).2
          ⟨hlink, htime, ⟨hagent.1, NodeParams.write_stale hagent.2 hw⟩, hsense⟩
    case writeSense => exact reqWriteSense_runsInOrder q h
    case clearInterlock =>
      unfold reqClearInterlock
      split_ifs
      · exact h
      · exact State.countsInOrder_raise h _
      · exact h
    case fetchEvent =>
      unfold reqFetchEvent
      split
      · exact h
      · next r rest hq =>
        have hlen : rest.length ≤ 32 := by
          have hroom := hagent.1
          simp only [hq, List.length_cons] at hroom
          omega
        exact (State.countsInOrder_iff _).2 ⟨hlink, htime, ⟨hlen, hagent.2⟩, hsense⟩
    case resetNode => unfold reqResetNode; split <;> exact h
  · obtain ⟨elink, -, etime, eagent, esense⟩ := RequestCode.run_keepsBlocks hc q s
    have hwatch : (c.run q s).1.link.clearCounters.watchInOrder := by rw [elink]; exact hlink
    exact (State.countsInOrder_iff _).2 ⟨hwatch, etime ▸ htime, eagent ▸ hagent, esense ▸ hsense⟩

theorem State.countsInOrder_writeReply {s : State} (h : s.countsInOrder) (code : Byte) (q : Req) (r : Reply) :
    (s.writeReply code q r).countsInOrder := by
  unfold State.writeReply
  generalize replyBytes code q r = bytes
  exact h

theorem State.countsInOrder_agentRequest {s : State} (h : s.countsInOrder) (c : RequestCode) (q : Req) :
    (s.agentRequest c q).countsInOrder := by
  rcases s.agentRequest_cases c q with e | e | e | e <;> rw [e]
  · exact h
  · exact h
  · exact RequestCode.run_countsInOrder c q h
  · exact State.countsInOrder_writeReply (RequestCode.run_countsInOrder c q h) _ q _

theorem State.countsInOrder_agentCell {s : State} (h : s.countsInOrder) (kind code : Byte) (q : Req) :
    (s.agentCell kind code q).countsInOrder := by
  rcases s.agentCell_cases kind code q with e | e | e | ⟨c, e⟩ <;> rw [e]
  · exact h
  · exact h
  · exact State.countsInOrder_writeReply h _ q _
  · exact State.countsInOrder_agentRequest h c q

theorem State.countsInOrder_cellLast {s : State} (h : s.countsInOrder) (b : Byte) (slots : Nat) :
    (s.cellLast b slots).countsInOrder := by
  unfold State.cellLast
  dsimp only
  split
  · exact h
  · split
    · apply State.countsInOrder_agentCell
      exact h
    · exact h

/-! ## Slots -/

theorem State.countsInOrder_perform {s : State} (h : s.countsInOrder) (entry : Entry) (received sent : Byte) :
    (s.perform entry received sent).1.countsInOrder := by
  unfold State.perform
  split
  · exact h
  · unfold State.afterInsert
    split
    · next line _ =>
      obtain ⟨hlink, htime, hagent, hsense⟩ := s.countsInOrder_iff.1 h
      exact (State.countsInOrder_iff _).2
        ⟨hlink, htime, hagent, SenseUnit.runsInOrder_setLine hsense line (hsense line)⟩
    · exact h

theorem State.countsInOrder_walkSlot (number : Nat) (received : Byte) (entries : List Entry) :
    ∀ {s : State} (sent : Byte), s.countsInOrder →
      (State.walkSlot number received entries s sent).1.countsInOrder := by
  induction entries with
  | nil => exact fun _ h => h
  | cons entry rest ih =>
    intro s sent h
    unfold State.walkSlot
    split
    · exact ih _ (State.countsInOrder_perform h entry received sent)
    · exact h

theorem State.countsInOrder_slotByte {s : State} (h : s.countsInOrder) (b : Byte) (place slots : Nat) :
    (s.slotByte b place slots).countsInOrder := by
  have hacted : (s.slotActions (place - 25) b).1.countsInOrder := by
    unfold State.slotActions
    split
    · exact State.countsInOrder_walkSlot _ b _ b h
    · exact h
  exact hacted

/-! ## Symbols -/

theorem State.countsInOrder_flightByte {s : State} (h : s.countsInOrder) (b : Byte) (place slots : Nat) :
    (s.flightByte b place slots).countsInOrder := by
  unfold State.flightByte
  split_ifs
  · exact h
  · exact State.countsInOrder_cellLast h b slots
  · exact State.countsInOrder_slotByte h b place slots
  · exact h
  · exact State.countsInOrder_endChecked h b

theorem State.countsInOrder_headerEighth {s : State} (h : s.countsInOrder) (b : Byte) :
    (s.headerEighth b).countsInOrder := by
  unfold State.headerEighth
  dsimp only
  split
  · exact State.countsInOrder_takeHeader (s := s.headerByte b) h _
  · exact State.countsInOrder_badHeader (s := s.headerByte b) h

theorem State.countsInOrder_passByte {s : State} (h : s.countsInOrder) (b : Byte) (place slots : Nat) :
    (s.passByte b place slots).countsInOrder := by
  unfold State.passByte
  dsimp only
  split <;> exact h

theorem State.countsInOrder_receiveByte {s : State} (h : s.countsInOrder) (b : Byte) :
    (s.receiveByte b).countsInOrder := by
  by_cases hd : s.link.state = .down
  · rw [State.receiveByte_of_down hd]
    exact h
  cases hf : s.link.frame with
  | between => rw [State.receiveByte_of_between hd hf]; exact h
  | bad => rw [State.receiveByte_of_bad hd hf]; exact h
  | header =>
    by_cases hl : s.link.header.length < 7
    · rw [State.receiveByte_of_header hd hf hl]
      exact h
    · rw [State.receiveByte_of_seven hd hf (by omega)]
      exact State.countsInOrder_headerEighth h b
  | good place slots =>
    by_cases hl : s.link.state = .locked
    · rw [State.receiveByte_of_locked hl hf]
      exact State.countsInOrder_flightByte h b _ slots
    · rw [State.receiveByte_of_pass hd hl hf]
      exact State.countsInOrder_passByte h b _ slots

theorem State.countsInOrder_receiveEnd {s : State} (h : s.countsInOrder) (sym : Sym) :
    (s.receiveEnd sym).countsInOrder := by
  by_cases hd : s.link.state = .down
  · rw [State.receiveEnd_of_down hd]
    exact h
  cases hf : s.link.frame with
  | between => rw [State.receiveEnd_of_between hd hf]; exact h
  | bad => rw [State.receiveEnd_of_bad hd hf]; exact h
  | header => rw [State.receiveEnd_of_header hd hf]; exact State.countsInOrder_badHeader h
  | good place slots =>
    by_cases hl : s.link.state = .locked
    · rw [State.receiveEnd_of_locked hl hf]
      exact State.countsInOrder_truncate h
    · rw [State.receiveEnd_of_pass hd hl hf]
      exact h

theorem State.countsInOrder_endForMarker {s : State} (h : s.countsInOrder) : s.endForMarker.countsInOrder := by
  unfold State.endForMarker
  split
  · exact h
  · exact State.countsInOrder_badHeader h
  · exact h
  · split
    · exact State.countsInOrder_truncate h
    · exact h

/-! ## Timeout, ticks and table operations -/

theorem State.countsInOrder_unlockForTimeout {s : State} (h : s.countsInOrder) :
    s.unlockForTimeout.countsInOrder := by
  have ended : ∀ t : State, t.countsInOrder →
      State.countsInOrder (if t.link.inFlight then t.truncate else t) := by
    intro t ht
    split
    · exact State.countsInOrder_truncate ht
    · exact ht
  unfold State.unlockForTimeout
  dsimp only
  split
  · exact ended _ (State.countsInOrder_raise h _)
  · split
    · exact ended _ (State.countsInOrder_raise h _)
    · exact State.countsInOrder_raise (ended { s with choices := s.choices + 1 } h) _

theorem State.countsInOrder_expire {s : State} (h : s.countsInOrder) : s.expire.countsInOrder := by
  unfold State.expire
  split
  · exact h
  · exact State.countsInOrder_unlockForTimeout h
  · exact h
  · exact h

/-- A step tick that is ready either was due or belongs to the coming base tick (R80, R90). -/
theorem Timebase.takeStep_inOrder {t : Timebase} (h : t.inOrder) (hr : t.stepReady = true) :
    t.takeStep.inOrder := by
  obtain ⟨hticks, htaken⟩ := h
  unfold Timebase.takeStep
  split
  · next hdue => exact ⟨hticks, fun hh => by simp [(htaken hh).2] at hdue⟩
  · next hdue =>
    have hlast : t.lastOfStep = true := by
      unfold Timebase.stepReady at hr
      simp_all
    exact ⟨hticks, fun _ => ⟨hlast, by simpa using hdue⟩⟩

/-- The filter leaves an unfiltered line's Run Count alone (R129). -/
theorem SenseUnit.runsInOrder_baseTick {u : SenseUnit} (h : u.runsInOrder) (sns : Byte) (clock : BitVec 15) :
    (u.baseTick sns clock).runsInOrder := by
  intro i
  rw [SenseUnit.lines_baseTick]
  obtain ⟨-, erun, efilter, -⟩ := u.lines[i].tick_frame (sns.getLsbD i.val) clock
  rw [erun, efilter]
  intro hoff
  unfold SenseLine.filter
  rw [if_neg (Bool.eq_false_iff.1 hoff)]
  split <;> exact h i hoff

theorem State.countsInOrder_baseTick {s : State} (h : s.countsInOrder) (sns : Byte) :
    (s.baseTick sns).countsInOrder := by
  obtain ⟨hlink, htime, hagent, hsense⟩ := s.countsInOrder_iff.1 h
  exact State.countsInOrder_raiseAll _
    ((State.countsInOrder_iff _).2
      ⟨hlink, s.time.baseTick_inOrder htime, hagent, SenseUnit.runsInOrder_baseTick hsense sns _⟩)

theorem State.countsInOrder_stepTick {s : State} (h : s.countsInOrder) (hr : s.time.stepReady = true) :
    State.countsInOrder { s.stepOperation with time := s.time.takeStep } := by
  obtain ⟨elink, -, -, esense, e, eagent⟩ := s.stepOperation_frame
  obtain ⟨hlink, htime, -, hsense⟩ := s.countsInOrder_iff.1 h
  obtain ⟨-, -, hagent, -⟩ := (State.countsInOrder_iff _).1 (State.countsInOrder_raise? h e)
  rw [← elink] at hlink
  rw [← eagent] at hagent
  rw [← esense] at hsense
  generalize s.stepOperation = stepped at hlink hagent hsense ⊢
  exact (State.countsInOrder_iff _).2 ⟨hlink, Timebase.takeStep_inOrder htime hr, hagent, hsense⟩

theorem State.countsInOrder_complete {s : State} (h : s.countsInOrder)
    (finish : MapStore → MapStore × Option Event) (part : Completion) :
    (s.complete finish part).countsInOrder := by
  have placed : ∀ {t : State}, t.countsInOrder → t.placeOwed.countsInOrder := by
    intro t ht
    unfold State.placeOwed
    apply State.countsInOrder_raise?
    exact ht
  have freed : (s.freeUnit finish).countsInOrder := by
    unfold State.freeUnit
    split
    · exact h
    · exact placed h
  cases part
  case whole => exact placed freed
  case unitIdle => exact freed
  case recordPlaced => exact placed h

/-! ## Every effect -/

theorem State.countsInOrder_of_effect (s t : State) (he : s.Effect t) (h : s.countsInOrder) :
    t.countsInOrder := by
  cases he with
  | restart sns => exact State.countsInOrder_powerOn sns
  | marker sns => exact State.countsInOrder_endForMarker (s := s.setPins sns) h
  | byte b => exact State.countsInOrder_receiveByte h b
  | lastByte b sns => exact State.countsInOrder_receiveByte (s := s.setPins sns) h b
  | earlyEnd sym sns => exact State.countsInOrder_receiveEnd (s := s.setPins sns) h sym
  | send =>
    obtain ⟨delay, abortNext, linkOut, e⟩ := s.link.send_frame
    rw [e]
    exact h
  | expiry sns _ => exact State.countsInOrder_expire (s := s.setPins sns) h
  | noExpiry sns _ => exact h
  | baseTick sns => exact State.countsInOrder_baseTick h sns
  | stepTick hr => exact State.countsInOrder_stepTick h hr
  | noStepTick _ => exact h
  | periodEnd channel | dutyEnd channel | pwmClock channel =>
    rw [State.onGenerator_frame]
    exact h
  | copyEntry | examineEntry => exact h
  | copyDone part | commitDone part => exact State.countsInOrder_complete h _ part
  | request c q =>
    unfold State.request
    split
    · exact State.countsInOrder_agentRequest h c q
    · exact h

/-- Settles O9: each effect keeps the counts in order, and the waiting commands do not bear on them. -/
theorem countsStayInOrder : Obligations.CountsStayInOrder := by
  unfold Obligations.CountsStayInOrder
  exact step_keeps (fun _ _ h => h) State.countsInOrder_of_effect

end Sys2Proof.Machine
end

section
/-! PROOFS. Symbols that begin a frame, end it, or only take their place in it (spec/01, sections 1.2 to 1.4). -/

namespace Sys2Proof.Machine

/-! ## The rows of the Link Framer -/

theorem exec_frameStartMarker (sns : Byte) (s : State) :
    exec (.frameStartMarkerArrival sns) s = .next (s.setPins sns).endForMarker.beginFrame := by
  rfl

theorem exec_dataByte (b : Byte) (s : State) : exec (.dataByteArrival b) s = .next (s.receiveByte b) := by
  rfl

theorem exec_headerEighthByte (b : Byte) (s : State) :
    exec (.headerEighthByteArrival b) s = .next (s.receiveByte b) := by
  rfl

theorem exec_frameCheckSecondByte (b sns : Byte) (s : State) :
    exec (.frameCheckSecondByteArrival b sns) s = .next ((s.setPins sns).receiveByte b) := by
  rfl

theorem exec_abortMarker (sns : Byte) (s : State) :
    exec (.abortMarkerArrival sns) s = .next ((s.setPins sns).receiveEnd .abort) := by
  rfl

theorem exec_idle (sns : Byte) (s : State) :
    exec (.idleArrival sns) s = .next ((s.setPins sns).receiveEnd .idle) := by
  rfl

theorem exec_symbolSend (s : State) : exec .symbolSend s = .next { s with link := s.link.send } := by
  rfl

/-! ## Bytes that take their place -/

/-- Settles O13: the byte's place in the frame picks the operation. -/
theorem bytesTakeTheirPlace : Obligations.BytesTakeTheirPlace := by
  unfold Obligations.BytesTakeTheirPlace
  intro s b hd
  refine ⟨?header, ?cell, ?check⟩
  case header =>
    intro hf hl
    rw [exec_dataByte, State.receiveByte_of_header hd hf hl]
    rfl
  case cell =>
    intro place slots hlocked hf hplace
    rw [exec_dataByte, State.receiveByte_of_locked hlocked hf, State.flightByte_of_cell s b slots (by omega)]
    rfl
  case check =>
    intro slots hlocked hslots hf
    rw [exec_dataByte, State.receiveByte_of_locked hlocked hf, show 24 + slots + 1 = 25 + slots by omega,
      State.flightByte_of_check]
    rfl

/-! ## Symbols that are only repeated -/

/-- A symbol between frames, by the link state (R9, R16). -/
theorem State.betweenSymbol_of_hunt {s : State} (h : s.link.state = .hunt) (sym : Sym) :
    s.betweenSymbol sym = { s with link := s.link.put sym } := by
  rw [State.betweenSymbol, if_pos h]

theorem State.betweenSymbol_of_not_hunt {s : State} (h : s.link.state ≠ .hunt) (sym : Sym) :
    s.betweenSymbol sym = { s with link := s.link.put .idle } := by
  rw [State.betweenSymbol, if_neg h]

/-- Settles O12: between frames by the link state, in a bad frame, and outside LOCKED in a good one. -/
theorem otherSymbolsAreRepeated : Obligations.OtherSymbolsAreRepeated := by
  unfold Obligations.OtherSymbolsAreRepeated
  intro s b sns
  dsimp only
  rw [exec_dataByte, exec_abortMarker, exec_idle]
  refine ⟨?between, ?bad, ?good⟩
  case between =>
    intro hf
    cases hs : s.link.state with
    | down =>
      rw [State.receiveByte_of_down hs, State.receiveEnd_of_down (s := s.setPins sns) hs,
        State.receiveEnd_of_down (s := s.setPins sns) hs]
      exact ⟨rfl, rfl, rfl⟩
    | hunt =>
      have hd : s.link.state ≠ .down := by simp [hs]
      rw [State.receiveByte_of_between hd hf, State.receiveEnd_of_between (s := s.setPins sns) hd hf,
        State.receiveEnd_of_between (s := s.setPins sns) hd hf, State.betweenSymbol_of_hunt hs,
        State.betweenSymbol_of_hunt (s := s.setPins sns) hs, State.betweenSymbol_of_hunt (s := s.setPins sns) hs]
      simp [LinkFramer.put, State.setPins, hs]
    | verify | locked =>
      have hd : s.link.state ≠ .down := by simp [hs]
      have hh : s.link.state ≠ .hunt := by simp [hs]
      rw [State.receiveByte_of_between hd hf, State.receiveEnd_of_between (s := s.setPins sns) hd hf,
        State.receiveEnd_of_between (s := s.setPins sns) hd hf, State.betweenSymbol_of_not_hunt hh,
        State.betweenSymbol_of_not_hunt (s := s.setPins sns) hh,
        State.betweenSymbol_of_not_hunt (s := s.setPins sns) hh]
      simp [LinkFramer.put, State.setPins, hs]
  case bad =>
    intro hd hf
    rw [State.receiveByte_of_bad hd hf, State.receiveEnd_of_bad (s := s.setPins sns) hd hf,
      State.receiveEnd_of_bad (s := s.setPins sns) hd hf]
    exact ⟨rfl, rfl, rfl⟩
  case good =>
    intro place slots hf hs
    have hd : s.link.state ≠ .down := by rcases hs with hs | hs <;> simp [hs]
    have hl : s.link.state ≠ .locked := by rcases hs with hs | hs <;> simp [hs]
    rw [State.receiveByte_of_pass hd hl hf, State.receiveEnd_of_pass (s := s.setPins sns) hd hl hf,
      State.receiveEnd_of_pass (s := s.setPins sns) hd hl hf]
    refine ⟨?_, rfl, rfl⟩
    unfold State.passByte
    dsimp only
    split <;> rfl

/-! ## The end of a frame -/

theorem State.endFrame_of_no_reset {s : State} (h : s.agent.resetScope = none) : s.endFrame = s := by
  simp only [State.endFrame, h]

theorem State.endFrame_of_reset {s : State} {scope : Scope} (h : s.agent.resetScope = some scope) :
    s.endFrame = s.applyReset scope := by
  simp only [State.endFrame, h]

/-- A frame truncated, but for the pending reset (R17, R73). -/
def State.cutFrame (s : State) : State :=
  { s with
    link := { s.link with frame := .between, truncatedFrames := countUp s.link.truncatedFrames },
    slot := s.slot.afterBadEnd }

theorem State.truncate_eq (s : State) : s.truncate = s.cutFrame.endFrame := by
  rw [State.truncate, State.cutFrame, SlotEngine.endBad_eq]

theorem State.truncate_of_no_reset {s : State} (h : s.agent.resetScope = none) : s.truncate = s.cutFrame := by
  rw [State.truncate_eq, State.endFrame_of_no_reset (s := s.cutFrame) h]

theorem State.truncate_of_reset {s : State} {scope : Scope} (h : s.agent.resetScope = some scope) :
    s.truncate = s.cutFrame.applyReset scope := by
  rw [State.truncate_eq, State.endFrame_of_reset (s := s.cutFrame) h]

/-- Settles O11: the cut of the frame in flight, then what leaves in its place. -/
theorem earlyEndTruncatesTheFrame : Obligations.EarlyEndTruncatesTheFrame := by
  unfold Obligations.EarlyEndTruncatesTheFrame
  intro s sns place slots hlocked hf hr
  rw [exec_abortMarker, exec_idle, exec_frameStartMarker, State.receiveEnd_of_locked (s := s.setPins sns) hlocked hf,
    State.receiveEnd_of_locked (s := s.setPins sns) hlocked hf,
    State.endForMarker_of_inFlight (s := s.setPins sns) (LinkFramer.inFlight_of_good hlocked hf),
    State.truncate_of_no_reset (s := s.setPins sns) hr]
  have hcut : State.truncate { s.setPins sns with link := (s.setPins sns).link.put .abort }
      = State.cutFrame { s.setPins sns with link := (s.setPins sns).link.put .abort } :=
    State.truncate_of_no_reset hr
  have hstate : ((s.setPins sns).cutFrame).link.state ≠ .down := by simp [State.cutFrame, hlocked]
  rw [hcut, State.beginFrame, if_neg hstate]
  exact ⟨rfl, rfl, rfl⟩

/-- A word of two bytes as a number (R180). -/
theorem word16_toNat (hi lo : Byte) : (word16 hi lo).toNat = hi.toNat * 256 + lo.toNat := by
  have hhi := hi.isLt
  have hlo := lo.isLt
  rw [word16_eq_wordAt, wordAt, BitVec.toNat_ofNat]
  omega

/-- The last symbols of a line give way to as many others (R14). -/
theorem replaceLast_append {old new : List Sym} (sent : List Sym) (h : old.length = new.length) :
    replaceLast (sent ++ old) new = sent ++ new := by
  simp [replaceLast, h]

/-- Settles O27: the received check picks the ending. -/
theorem frameEndsWithItsCheck : Obligations.FrameEndsWithItsCheck := by
  unfold Obligations.FrameEndsWithItsCheck
  intro s b sns slots sent first hlocked hf hr hdelay
  have hword := word16_toNat s.link.checkByte b
  have hsent : ∀ check : BitVec 16,
      replaceLast (s.link.delay ++ [.data b]) ([hiByte check, loByte check].map .data)
        = sent ++ [.data (hiByte check), .data (loByte check)] := by
    intro check
    rw [hdelay, List.append_assoc]
    exact replaceLast_append sent rfl
  dsimp only
  rw [exec_frameCheckSecondByte, State.receiveByte_of_locked (s := s.setPins sns) hlocked hf,
    State.flightByte_of_end _ b (by omega)]
  refine ⟨fun h => ?correct, fun h => ?incorrect⟩
  case correct =>
    have hc : word16 s.link.checkByte b = s.link.receivedCheck := BitVec.eq_of_toNat_eq (hword.trans h)
    rw [State.endChecked_of_correct (s := s.setPins sns) hc, State.endFrame_of_no_reset (by exact hr)]
    simp only [State.slot_setPins, SlotEngine.endGood_eq, State.link_setPins, LinkFramer.substitute, LinkFramer.put,
      hsent]
    rfl
  case incorrect =>
    have hc : word16 s.link.checkByte b ≠ s.link.receivedCheck := fun hc => h (hword.symm.trans (by rw [hc]))
    rw [State.endChecked_of_incorrect (s := s.setPins sns) hc, State.endFrame_of_no_reset (by exact hr)]
    simp only [State.slot_setPins, SlotEngine.endBad_eq, State.link_setPins, LinkFramer.substitute, LinkFramer.put,
      hsent]
    rfl

/-! ## The frame-start marker -/

/-- What a marker ends: nothing, an incomplete header, or a frame in flight (R4). -/
theorem State.endForMarker_cases (s : State) :
    s.endForMarker = s ∨ (s.link.frame = .header ∧ s.endForMarker = s.badHeader)
      ∨ (s.link.inFlight = true ∧ s.endForMarker = s.truncate) := by
  by_cases hf : s.link.frame = .header
  · exact .inr (.inl ⟨hf, State.endForMarker_of_header hf⟩)
  · cases h : s.link.inFlight with
    | false => exact .inl (State.endForMarker_of_rest hf h)
    | true => exact .inr (.inr ⟨rfl, State.endForMarker_of_inFlight h⟩)

theorem State.badHeader_of_down {s : State} (h : s.link.state = .down) : s.badHeader = s := by
  simp only [State.badHeader, h]

theorem State.endForMarker_of_down {s : State} (h : s.link.state = .down) : s.endForMarker = s := by
  rcases s.endForMarker_cases with e | ⟨-, e⟩ | ⟨hf, -⟩
  · exact e
  · rw [e, State.badHeader_of_down h]
  · simp [(s.link.inFlight_iff.1 hf).1] at h

/-- A truncation leaves the link state alone. -/
theorem State.state_truncate (s : State) : s.truncate.link.state = s.link.state := by
  cases hr : s.agent.resetScope with
  | none => rw [State.truncate_of_no_reset hr]; rfl
  | some scope =>
    obtain ⟨elink, -⟩ := s.cutFrame.applyReset_blocks scope
    rw [State.truncate_of_reset hr, elink, LinkFramer.state_nodeReset]
    rfl

/-- What the end of a frame at a marker leaves alone. -/
theorem State.endForMarker_frame (s : State) :
    s.endForMarker.link.delay = s.link.delay ∧ s.endForMarker.link.position = s.link.position
      ∧ s.endForMarker.link.frameClock = s.link.frameClock
      ∧ (s.link.frame ≠ .header → s.endForMarker.link.state = s.link.state)
      ∧ (s.agent.resetScope = none →
          s.endForMarker.map = s.map ∧ s.endForMarker.level = s.level
            ∧ s.endForMarker.generators = s.generators ∧ s.endForMarker.time = s.time
            ∧ s.endForMarker.sense = s.sense ∧ s.endForMarker.agent.params = s.agent.params) := by
  rcases s.endForMarker_cases with e | ⟨hf, e⟩ | ⟨-, e⟩ <;> rw [e]
  · exact ⟨rfl, rfl, rfl, fun _ => rfl, fun _ => ⟨rfl, rfl, rfl, rfl, rfl, rfl⟩⟩
  · obtain ⟨hdelay, hpos, hclock, hmap, hlevel, hgen, htime, hsense, hparams, -⟩ := s.badHeader_frame
    exact ⟨hdelay, hpos, hclock, fun hh => absurd hf hh, fun _ => ⟨hmap, hlevel, hgen, htime, hsense, hparams⟩⟩
  · obtain ⟨hdelay, hpos, hclock, -, hrest⟩ := s.truncate_frame
    exact ⟨hdelay, hpos, hclock, fun _ => s.state_truncate, hrest⟩

/-- Settles O10: the marker ends what is in progress, then begins its own frame. -/
theorem markerBeginsAFrame : Obligations.MarkerBeginsAFrame := by
  unfold Obligations.MarkerBeginsAFrame
  intro s sns
  obtain ⟨hdelay, hpos, hclock, hstate, hrest⟩ := (s.setPins sns).endForMarker_frame
  refine ⟨_, exec_frameStartMarker sns s, rfl, rfl, rfl, ?_, hpos, hclock, ?down, ?up, ?blocks, ?whole⟩
  · exact congrArg (· ++ [.marker]) hdelay
  case down =>
    intro hd
    rw [State.endForMarker_of_down (s := s.setPins sns) hd]
    exact ⟨if_pos hd, rfl⟩
  case up =>
    intro hd hf
    exact (if_neg (by rw [hstate hf]; exact hd)).trans (hstate hf)
  case blocks =>
    intro hr
    obtain ⟨hmap, hlevel, hgen, htime, hsense, hparams⟩ := hrest hr
    exact ⟨hmap, hlevel, hgen, htime, hsense, hparams⟩
  case whole =>
    intro hf hflight
    rw [State.endForMarker_of_rest (s := s.setPins sns) hf hflight]
    rfl

/-! ## Bad headers -/

/-- A header that has proved bad never leaves the link DOWN (R9, R10, R12). -/
theorem State.headerProvedBad_up {s : State} (hd : s.link.state ≠ .down) {l : LinkFramer}
    (hl : l.state = s.link.state) : (s.headerProvedBad l).link.state ≠ .down := by
  unfold State.headerProvedBad
  split
  · next h => exact absurd h hd
  · exact hl ▸ hd
  · nofun
  · split
    · exact hl ▸ hd
    · nofun

/-- Settles O14: the symbol that proves the header bad is taken in, and the link state decides. -/
theorem badHeaders : Obligations.BadHeaders := by
  unfold Obligations.BadHeaders
  intro s sns hd hf
  have hbad : ∀ (t : State) (l : LinkFramer), t.link.state ≠ .down → l.state = t.link.state →
      l.badHeaders = t.link.badHeaders → State.badHeader { t with link := l } = t.headerProvedBad l :=
    fun t l ht hs hb => State.badHeader_eq t l hs hb ht
  have hcut := hbad (s.setPins sns) s.link hd rfl rfl
  refine ⟨?eighth, ?abort, ?idle, ?marker⟩
  case eighth =>
    intro b1 b2 b3 b4 b5 b6 b7 b8 hh hg
    rw [exec_headerEighthByte, State.receiveByte_of_seven hd hf (by simp [hh]), State.headerEighth]
    simp only [hh, List.cons_append, List.nil_append, goodHeader_of_bad _ _ _ _ _ _ _ _ hg]
    exact congrArg _ (hbad s _ hd rfl rfl)
  case abort =>
    rw [exec_abortMarker, State.receiveEnd_of_header (s := s.setPins sns) hd hf]
    exact congrArg _ (hbad (s.setPins sns) _ hd rfl rfl)
  case idle =>
    rw [exec_idle, State.receiveEnd_of_header (s := s.setPins sns) hd hf]
    exact congrArg _ (hbad (s.setPins sns) _ hd rfl rfl)
  case marker =>
    obtain ⟨hdelay, -, -, -, -, -, -, -, hparams, -⟩ := (s.setPins sns).badHeader_frame
    have hup := State.headerProvedBad_up (s := s.setPins sns) hd (l := s.link) rfl
    have hcut' : (s.setPins sns).badHeader = (s.setPins sns).headerProvedBad s.link := hcut
    rw [hcut'] at hdelay hparams
    rw [exec_frameStartMarker, State.endForMarker_of_header (s := s.setPins sns) hf, hcut', State.beginFrame,
      if_neg hup, hparams]
    simp only [LinkFramer.put, hdelay]
    rfl

/-! ## The downstream port -/

/-- Settles O30: an owed abort marker, else the oldest of more than twenty symbols, else idle. -/
theorem symbolSendTakesTheOldest : Obligations.SymbolSendTakesTheOldest := by
  unfold Obligations.SymbolSendTakesTheOldest
  intro s
  rw [exec_symbolSend]
  refine ⟨fun ha => ?abort, fun first later ha hd hlen => ?oldest, fun ha hlen => ?idle⟩
  case abort => rw [LinkFramer.send, if_pos ha]
  case oldest =>
    have hroom : delayByteTimes < s.link.delay.length := by simp [delayByteTimes, hd]; omega
    rw [LinkFramer.send, if_neg (by simp [ha]), if_pos hroom, hd]
    rfl
  case idle =>
    have hroom : ¬ delayByteTimes < s.link.delay.length := by simp [delayByteTimes]; omega
    rw [LinkFramer.send, if_neg (by simp [ha]), if_neg hroom]

end Sys2Proof.Machine
end

section
/-! PROOFS. Good headers in HUNT, VERIFY and LOCKED, and the superframe boundary (spec/01, sections 1.3 to 1.7). -/

namespace Sys2Proof.Machine

/-! ## What a good header does to the link -/

/-- A good header of eight bytes in order, as the model reads it (R181). -/
def headerOf (b1 b2 b3 b4 b5 b6 b7 : Byte) : Header where
  bank := if b1.getLsbD 3 then .b else .a
  blackout := b1.getLsbD 2
  frameIndex := b2
  lastIndex := b3
  heartbeat := b4
  hopCount := b5
  slotCount := b6.toNat % 4 * 256 + b7.toNat

/-- The link as a header that is followed leaves it, the eight symbols received given way to the header as sent
(R15, R20, R21). -/
theorem LinkFramer.followHeader_eq {l : LinkFramer} {b1 b2 b3 b4 b5 b6 b7 b8 : Byte} {sent seven : List Sym}
    (hh : l.header = [b1, b2, b3, b4, b5, b6, b7, b8]) (hd : l.delay = sent ++ seven ++ [.data b8])
    (h7 : seven.length = 7) :
    l.followHeader (headerOf b1 b2 b3 b4 b5 b6 b7) =
      { l with
        frame := .good 8 (b6.toNat % 4 * 256 + b7.toNat), heldLast := b3, cell := [],
        position := if b5.toNat < 250 then b5 + 1 else 0,
        expected := if b2.toNat < b3.toNat then b2 + 1 else 0,
        delay := sent ++ (sentHeader b1 b2 b3 b4 b5 b6 b7 b8).map .data } := by
  have hsent : regenerated [b1, b2, b3, b4, b5, b6, b7, b8] = sentHeader b1 b2 b3 b4 b5 b6 b7 b8 := rfl
  have hlen : (sentHeader b1 b2 b3 b4 b5 b6 b7 b8).length = 8 := by rw [← hsent]; exact regenerated_length _ rfl
  have hdelay : replaceLast l.delay ((regenerated l.header).map .data)
      = sent ++ (sentHeader b1 b2 b3 b4 b5 b6 b7 b8).map .data := by
    rw [hd, hh, hsent]
    exact replaceLast_eight sent seven _ _ h7 hlen
  simp only [LinkFramer.followHeader, LinkFramer.acceptHeader, LinkFramer.substitute, hdelay]
  rfl

/-- The eighth byte of a good header, its eight symbols in the delay line (R5). -/
theorem exec_goodHeader {s : State} {b1 b2 b3 b4 b5 b6 b7 b8 : Byte} (hd : s.link.state ≠ .down)
    (hf : s.link.frame = .header) (hh : s.link.header = [b1, b2, b3, b4, b5, b6, b7])
    (hg : headerIsGood b1 b2 b3 b4 b5 b6 b7 b8) :
    exec (.headerEighthByteArrival b8) s
      = .next ((s.headerByte b8).takeHeader (headerOf b1 b2 b3 b4 b5 b6 b7)) := by
  rw [exec_headerEighth_good s b1 b2 b3 b4 b5 b6 b7 b8 hd hf hh hg, State.headerByte, hh]
  rfl

/-- The followed header of `exec_goodHeader`, from the state before its eighth byte. -/
theorem LinkFramer.followHeader_headerByte {s : State} {b1 b2 b3 b4 b5 b6 b7 b8 : Byte} {sent seven : List Sym}
    (hh : s.link.header = [b1, b2, b3, b4, b5, b6, b7]) (hd : s.link.delay = sent ++ seven)
    (h7 : seven.length = 7) :
    (s.headerByte b8).link.followHeader (headerOf b1 b2 b3 b4 b5 b6 b7) =
      { s.link with
        header := [b1, b2, b3, b4, b5, b6, b7, b8], frame := .good 8 (b6.toNat % 4 * 256 + b7.toNat),
        heldLast := b3, cell := [], position := if b5.toNat < 250 then b5 + 1 else 0,
        expected := if b2.toNat < b3.toNat then b2 + 1 else 0,
        delay := sent ++ (sentHeader b1 b2 b3 b4 b5 b6 b7 b8).map .data } := by
  have hheader : (s.headerByte b8).link.header = [b1, b2, b3, b4, b5, b6, b7, b8] := by
    simp [State.headerByte, hh]
  rw [LinkFramer.followHeader_eq (sent := sent) hheader (by simp [State.headerByte, hd]) h7]
  simp [State.headerByte, LinkFramer.put, hh]

/-- Settles O15: HUNT follows the header. -/
theorem goodHeaderInHunt : Obligations.GoodHeaderInHunt := by
  unfold Obligations.GoodHeaderInHunt
  intro s b1 b2 b3 b4 b5 b6 b7 b8 sent seven hs hf hh hg hd h7
  have hs' : (s.headerByte b8).link.state = .hunt := hs
  rw [exec_goodHeader (by simp [hs]) hf hh hg, State.takeHeader, hs']
  simp only [LinkFramer.followHeader_headerByte hh hd h7]
  rfl

/-! ## Events around the acting-frame decision -/

/-- The acting-frame decision reads the staging buffers, the Level Engine and the mode alone. -/
theorem State.slotAtHeader_congr {s t : State} (hs : t.slot = s.slot) (hl : t.level = s.level)
    (hp : t.agent.params = s.agent.params) (position : Byte) : t.slotAtHeader position = s.slotAtHeader position := by
  unfold State.slotAtHeader State.freshBuffer
  rw [hs, hl, hp]

/-- Events leave the Slot Engine to be replaced before or after them. -/
theorem State.raiseAll_slot (es : List Event) : ∀ (s : State) (e : SlotEngine),
    State.raiseAll { s with slot := e } es = { s.raiseAll es with slot := e } := by
  induction es with
  | nil => exact fun _ _ => rfl
  | cons x es ih => exact fun s e => ih (s.raise x) e

theorem State.raiseAll_append (s : State) (es fs : List Event) :
    s.raiseAll (es ++ fs) = (s.raiseAll es).raiseAll fs :=
  List.foldl_append

/-- The acting-frame decision after events is that before them. -/
theorem State.decideActing_raiseAll (s : State) (es : List Event) :
    (s.raiseAll es).decideActing
      = State.raiseAll { s with slot := s.slotAtHeader s.link.position } es := by
  obtain ⟨hlink, -, hslot, hlevel, -, -, -, hparams, -⟩ := s.raiseAll_frame es
  have hdecided : (s.raiseAll es).slotAtHeader (s.raiseAll es).link.position = s.slotAtHeader s.link.position := by
    rw [hlink]
    exact State.slotAtHeader_congr hslot hlevel hparams _
  rw [State.decideActing_eq, hdecided]
  exact (State.raiseAll_slot es s _).symm

/-! ## A good header in LOCKED -/

/-- The link as a good header in LOCKED leaves it (R12, R20, R21, R23). -/
def LinkFramer.lockedHeader (l : LinkFramer) (h : Header) : LinkFramer :=
  { l.followHeader h with
    badHeaders := 0, heldBlackout := h.blackout,
    indexSlips := if h.frameIndex = l.expected then l.indexSlips else countUp l.indexSlips }

/-- The events of a good header in LOCKED, in their order (R20, R21, R172). -/
def LinkFramer.headerEvents (l : LinkFramer) (h : Header) : List Event :=
  (if positionOf h.hopCount = l.position then [] else [.positionChanged l.position (positionOf h.hopCount)])
    ++ (if h.frameIndex = l.expected then [] else [.indexSlip l.expected h.frameIndex])

theorem State.lockedHeader_eq (s : State) (h : Header) :
    s.lockedHeader h = State.afterLockedHeader
      (State.raiseAll { s with link := s.link.lockedHeader h } (s.link.headerEvents h)) h := by
  have hslips : (s.link.followHeader h).indexSlips = s.link.indexSlips := rfl
  have hposition : (s.link.followHeader h).position = positionOf h.hopCount := rfl
  simp only [State.lockedHeader, State.raise?, LinkFramer.lockedHeader, LinkFramer.headerEvents,
    State.raiseAll_append, hslips, hposition]
  by_cases hp : positionOf h.hopCount = s.link.position <;> by_cases hi : h.frameIndex = s.link.expected <;>
    simp [hp, hi]

/-- The link of `LinkFramer.lockedHeader`, from the state before the eighth byte. -/
theorem LinkFramer.lockedHeader_headerByte {s : State} {b1 b2 b3 b4 b5 b6 b7 b8 : Byte} {sent seven : List Sym}
    (hh : s.link.header = [b1, b2, b3, b4, b5, b6, b7]) (hd : s.link.delay = sent ++ seven)
    (h7 : seven.length = 7) :
    (s.headerByte b8).link.lockedHeader (headerOf b1 b2 b3 b4 b5 b6 b7) =
      { s.link with
        header := [b1, b2, b3, b4, b5, b6, b7, b8], frame := .good 8 (b6.toNat % 4 * 256 + b7.toNat),
        heldLast := b3, cell := [], badHeaders := 0, heldBlackout := b1.getLsbD 2,
        position := if b5.toNat < 250 then b5 + 1 else 0,
        expected := if b2.toNat < b3.toNat then b2 + 1 else 0,
        indexSlips := if b2 = s.link.expected then s.link.indexSlips else countUp s.link.indexSlips,
        delay := sent ++ (sentHeader b1 b2 b3 b4 b5 b6 b7 b8).map .data } := by
  rw [LinkFramer.lockedHeader, LinkFramer.followHeader_headerByte hh hd h7]
  rfl

/-- Settles O17: the header is followed and its events raised; the acting-frame decision is the same before them. -/
theorem goodHeaderInLocked : Obligations.GoodHeaderInLocked := by
  unfold Obligations.GoodHeaderInLocked
  intro s b1 b2 b3 b4 b5 b6 b7 b8 sent seven hs hf hh hg h0 hd h7
  have hs' : (s.headerByte b8).link.state = .locked := hs
  have hindex : (headerOf b1 b2 b3 b4 b5 b6 b7).frameIndex ≠ 0 := h0
  dsimp only
  rw [exec_goodHeader (by simp [hs]) hf hh hg, State.takeHeader, hs']
  dsimp only
  rw [State.lockedHeader_eq, State.afterLockedHeader, if_neg hindex, State.decideActing_raiseAll,
    LinkFramer.lockedHeader_headerByte hh hd h7]
  rfl

/-! ## A good header in VERIFY -/

/-- A boundary that finds no reference records the Heartbeat and leaves the events to the swap (R24). -/
theorem State.boundary_of_no_reference {s : State} (hr : s.link.reference = none) (h : Header) :
    s.boundary h = State.raiseAll
      { s with
        map := (s.map.boundary h.bank).1, link := { s.link with reference := some h.heartbeat } }
      (s.map.boundary h.bank).2.toList := by
  have hwatch : s.link.watch s.agent.params h.heartbeat
      = ({ s.link with reference := some h.heartbeat }, none) := by
    simp only [LinkFramer.watch, hr]
  rw [State.boundary, hwatch]
  cases (s.map.boundary h.bank).2 <;> rfl

/-- The swap decision as one record and a list of events (R47, R48, R49). -/
theorem MapStore.boundary_swaps (m : MapStore) (named : BankName) :
    (m.boundary named).1 =
        { m with
          active := if named ≠ m.active ∧ (m.bank named).state = .ready then named else m.active,
          misaligned := decide (named ≠ m.active ∧ (m.bank named).state ≠ .ready) }
      ∧ (m.boundary named).2.toList =
        if named ≠ m.active ∧ (m.bank named).state = .ready then
          [.bankSwitched named (m.bank named).count]
        else if (named ≠ m.active ∧ (m.bank named).state ≠ .ready) ∧ m.misaligned = false then
          [.swapRefused named (m.bank named).state]
        else [] := by
  unfold MapStore.boundary
  by_cases ha : named = m.active
  · simp [ha]
  · by_cases hr : (m.bank named).state = .ready
    · simp [ha, hr]
    · cases hm : m.misaligned <;> simp [ha, hr]

/-- Settles O16: an unexpected index, the expected one, and the expected one at a boundary. -/
theorem goodHeaderInVerify : Obligations.GoodHeaderInVerify := by
  unfold Obligations.GoodHeaderInVerify
  intro s b1 b2 b3 b4 b5 b6 b7 b8 sent seven hs hf hh hg hd h7
  have hs' : (s.headerByte b8).link.state = .verify := hs
  have htake : (s.headerByte b8).takeHeader (headerOf b1 b2 b3 b4 b5 b6 b7)
      = if b2 = s.link.expected then (s.headerByte b8).enterLocked (headerOf b1 b2 b3 b4 b5 b6 b7)
        else { s.headerByte b8 with
          link := { (s.headerByte b8).link.acceptHeader (headerOf b1 b2 b3 b4 b5 b6 b7) with state := .hunt } } := by
    rw [State.takeHeader, hs']
    rfl
  dsimp only
  rw [exec_goodHeader (by simp [hs]) hf hh hg, htake]
  refine ⟨fun he => ?unexpected, fun he h0 => ?expected, fun he h0 => ?boundary⟩
  case unexpected =>
    rw [if_neg he]
    simp only [State.headerByte, hh]
    rfl
  case expected =>
    have hindex : (headerOf b1 b2 b3 b4 b5 b6 b7).frameIndex ≠ 0 := h0
    rw [if_pos he, State.enterLocked, LinkFramer.followHeader_headerByte hh hd h7, State.afterLockedHeader,
      if_neg hindex]
    exact congrArg _ (State.decideActing_raiseAll _ [.linkState .verify .locked])
  case boundary =>
    have hindex : (headerOf b1 b2 b3 b4 b5 b6 b7).frameIndex = 0 := h0
    obtain ⟨hmap, hevents⟩ := s.map.boundary_swaps (headerOf b1 b2 b3 b4 b5 b6 b7).bank
    rw [if_pos he, State.enterLocked, LinkFramer.followHeader_headerByte hh hd h7, State.afterLockedHeader,
      if_pos hindex, State.boundary_of_no_reference rfl]
    refine congrArg _ ((State.decideActing_raiseAll
      { s with
        link := _, map := (s.map.boundary (headerOf b1 b2 b3 b4 b5 b6 b7).bank).1 }
      (.linkState .verify .locked :: (s.map.boundary (headerOf b1 b2 b3 b4 b5 b6 b7).bank).2.toList)).trans ?_)
    rw [hmap, hevents]
    rfl

end Sys2Proof.Machine
end

section
/-! PROOFS. The superframe boundary in LOCKED: which events it raises, what they leave at the Agent, and what the watch
becomes (spec/01, section 1.7; spec/02, section 2.5; spec/08, sections 8.1 and 8.2). -/

namespace Sys2Proof.Machine

/-! ## What events leave at the Agent -/

/-- The record of an event, stamped (R169). -/
def Event.record (e : Event) (stamp : BitVec 16) : EventRecord := ⟨e.kind, e.subject, stamp, e.detail⟩

theorem EventKind.code_lt (k : EventKind) : k.code < 12 := by
  cases k <;> decide

/-- The flag of a kind is the bit with its code (R184). -/
theorem EventKind.flag_getLsbD (k : EventKind) (n : Nat) : k.flag.getLsbD n = decide (k.code = n) := by
  have hflag : k.flag = BitVec.twoPow 14 k.code := by cases k <;> rfl
  have hk := k.code_lt
  rw [hflag, BitVec.getLsbD_twoPow]
  simp
  omega

theorem queueLostFlag_getLsbD {n : Nat} (hn : n ≠ 12) : queueLostFlag.getLsbD n = false := by
  rw [show queueLostFlag = 1#14 <<< 12 from rfl, BitVec.getLsbD_shiftLeft, BitVec.getLsbD_one]
  grind

/-- Besides QUEUE_LOST an event sets the flag of its kind alone (R171, R173). -/
theorem Agent.flags_take (a : Agent) (e : Event) (stamp : BitVec 16) {n : Nat} (hn : n ≠ 12) :
    (a.take e stamp).flags.getLsbD n = (a.flags.getLsbD n || decide (e.kind.code = n)) := by
  have hlost := queueLostFlag_getLsbD hn
  unfold Agent.take
  dsimp only
  split_ifs <;> simp [hlost, EventKind.flag_getLsbD]

theorem Agent.flags_foldl_take (es : List Event) (stamp : BitVec 16) {n : Nat} (hn : n ≠ 12) : ∀ a : Agent,
    (es.foldl (fun agent e => Agent.take agent e stamp) a).flags.getLsbD n
      = (a.flags.getLsbD n || es.any fun e => decide (e.kind.code = n)) := by
  induction es with
  | nil => simp
  | cons e es ih =>
    intro a
    rw [List.foldl_cons, ih, Agent.flags_take a e stamp hn, List.any_cons, Bool.or_assoc]

/-- With every kind admitted and room, the records join the queue in order (R172). -/
theorem Agent.queue_foldl_take (es : List Event) (stamp : BitVec 16) : ∀ a : Agent, a.mask = 0xFFF →
    a.queue.length + es.length ≤ 32 →
      (es.foldl (fun agent e => Agent.take agent e stamp) a).queue
        = a.queue ++ es.map fun e => e.record stamp := by
  induction es with
  | nil => simp
  | cons e es ih =>
    intro a hm hroom
    simp only [List.length_cons] at hroom
    have hadmit : a.mask.getLsbD e.kind.code = true := by
      rw [hm]
      cases e.kind <;> decide
    have hqueue : (a.take e stamp).queue = a.queue ++ [e.record stamp] := by
      unfold Agent.take
      rw [if_pos hadmit, if_pos (show a.queue.length < queueRoom by unfold queueRoom; omega)]
      rfl
    rw [List.foldl_cons, ih _ ((Agent.mask_take a e stamp).trans hm) (by simp [hqueue]; omega), hqueue,
      List.append_assoc]
    rfl

/-! ## The events of a boundary -/

/-- The event of the swap decision (R48, R49). -/
theorem MapStore.boundary_event (m : MapStore) (named : BankName) (e : Event) :
    (m.boundary named).2 = some e ↔
      (named ≠ m.active ∧ (m.bank named).state = .ready ∧ e = .bankSwitched named (m.bank named).count)
        ∨ (named ≠ m.active ∧ (m.bank named).state ≠ .ready ∧ m.misaligned = false
          ∧ e = .swapRefused named (m.bank named).state) := by
  rw [MapStore.boundary_eq]
  dsimp only
  split_ifs <;> grind

/-- The event of the heartbeat watch (R24, R25). -/
theorem LinkFramer.watch_event (l : LinkFramer) (p : NodeParams) (hb : Byte) (e : Event) :
    (l.watch p hb).2 = some e ↔
      (l.reachesLimit p hb ∧ e = .heartbeat 2 (min (l.staleCount + 1) 255))
        ∨ (l.reachesWarn p hb ∧ e = .heartbeat 1 (min (l.staleCount + 1) 255))
        ∨ (l.heartbeatChanged hb ∧ l.staleStage ≠ 0 ∧ e = .heartbeat 0 l.staleCount) := by
  rcases l.watch_cases p hb with
    ⟨hr, h⟩ | ⟨hr, hlimit, h⟩ | ⟨hr, hwarn, h⟩ | ⟨hr, hnl, hnw, h⟩ | ⟨hc, h0, h⟩ | ⟨hc, h0, h⟩ <;>
    rw [h] <;>
    grind [LinkFramer.reachesLimit, LinkFramer.reachesWarn, LinkFramer.heartbeatChanged]

/-- After a boundary the Heartbeat is the reference; the watch touches its other three items besides (R24). -/
theorem LinkFramer.watch_link (l : LinkFramer) (p : NodeParams) (hb : Byte) :
    (l.watch p hb).1 =
      { l with
        reference := some hb, staleCount := (l.watch p hb).1.staleCount,
        staleStage := (l.watch p hb).1.staleStage, staleCause := (l.watch p hb).1.staleCause } := by
  rcases l.watch_cases p hb with
    ⟨hr, h⟩ | ⟨hr, hlimit, h⟩ | ⟨hr, hwarn, h⟩ | ⟨hr, hnl, hnw, h⟩ | ⟨hc, h0, h⟩ | ⟨hc, h0, h⟩ <;>
    rw [h] <;> simp only [← hr]

/-- The count, stage and cause after a boundary, case by case (R24, R25). -/
theorem LinkFramer.watch_items (l : LinkFramer) (p : NodeParams) (hb : Byte) :
    let w := (l.watch p hb).1
    (l.reference = some hb → w.staleCount = min (l.staleCount + 1) 255)
      ∧ (l.heartbeatChanged hb → w.staleCount = 0 ∧ w.staleStage = 0)
      ∧ (l.heartbeatChanged hb → l.staleStage ≠ 0 → w.staleCause = false)
      ∧ (l.reachesLimit p hb → w.staleStage = 2 ∧ w.staleCause = true)
      ∧ (l.reachesWarn p hb → w.staleStage = 1 ∧ w.staleCause = l.staleCause)
      ∧ (l.reference = some hb ∧ ¬ l.reachesLimit p hb ∧ ¬ l.reachesWarn p hb →
          w.staleStage = l.staleStage ∧ w.staleCause = l.staleCause)
      ∧ (l.reference = none → w.staleCount = l.staleCount ∧ w.staleStage = l.staleStage
          ∧ w.staleCause = l.staleCause) := by
  rcases l.watch_cases p hb with
    ⟨hr, h⟩ | ⟨hr, hlimit, h⟩ | ⟨hr, hwarn, h⟩ | ⟨hr, hnl, hnw, h⟩ | ⟨hc, h0, h⟩ | ⟨hc, h0, h⟩ <;>
    rw [h] <;>
    grind [LinkFramer.reachesLimit, LinkFramer.reachesWarn, LinkFramer.heartbeatChanged]

/-- A stage that changes is told by HEARTBEAT, with the count it was reached or left at (R25). -/
theorem LinkFramer.watch_stage_event (l : LinkFramer) (p : NodeParams) (hb : Byte)
    (hstage : (l.watch p hb).1.staleStage ≠ l.staleStage) :
    (l.watch p hb).2 = some (.heartbeat (l.watch p hb).1.staleStage
      (if (l.watch p hb).1.staleStage = 0 then l.staleCount else (l.watch p hb).1.staleCount)) := by
  rcases l.watch_cases p hb with
    ⟨hr, h⟩ | ⟨hr, hlimit, h⟩ | ⟨hr, hwarn, h⟩ | ⟨hr, hnl, hnw, h⟩ | ⟨hc, h0, h⟩ | ⟨hc, h0, h⟩ <;>
    rw [h] at hstage ⊢ <;> simp_all

end Sys2Proof.Machine
end

section
/-! PROOFS. A superframe boundary in LOCKED, whole (O18). -/

namespace Sys2Proof.Machine

/-- A superframe boundary in LOCKED, block by block: the events of the header, then those of swap and watch in an order
that is a free value (R22, R172; log 1). -/
theorem State.lockedBoundary_spec (s : State) (h : Header) (h0 : h.frameIndex = 0) :
    let t := s.lockedHeader h
    let watch := (s.link.lockedHeader h).watch s.agent.params h.heartbeat
    t.link = watch.1 ∧ t.map = (s.map.boundary h.bank).1 ∧ t.slot = s.slotAtHeader (positionOf h.hopCount)
      ∧ t.level = s.level ∧ t.generators = s.generators ∧ t.sense = s.sense ∧ t.time = s.time
      ∧ ∃ es : List Event,
          t.agent = (s.link.headerEvents h ++ es).foldl
              (fun agent e => agent.take e (s.link.frameClock.setWidth 16)) s.agent
            ∧ (∀ e, e ∈ es ↔ (s.map.boundary h.bank).2 = some e ∨ watch.2 = some e) ∧ es.length ≤ 2 := by
  dsimp only
  rw [State.lockedHeader_eq, State.afterLockedHeader, if_pos h0, State.decideActing_eq]
  generalize hu : State.raiseAll { s with link := s.link.lockedHeader h } (s.link.headerEvents h) = u
  obtain ⟨ulink, umap, uslot, ulevel, ugen, usense, utime, uparams, -⟩ :=
    State.raiseAll_frame (s.link.headerEvents h) { s with link := s.link.lockedHeader h }
  have uagent := State.agent_raiseAll (s.link.headerEvents h) { s with link := s.link.lockedHeader h }
  rw [hu] at ulink umap uslot ulevel ugen usense utime uparams uagent
  obtain ⟨tlink, tmap, tslot, tlevel, tgen, tsense, ttime, tparams, -⟩ := u.boundary_frame h
  rw [ulink, uparams] at tlink
  rw [umap] at tmap
  have hposition : (u.boundary h).link.position = positionOf h.hopCount := by
    rw [tlink, LinkFramer.watch_link]
    rfl
  refine ⟨tlink, tmap, ?slot, tlevel.trans ulevel, tgen.trans ugen, tsense.trans usense, ttime.trans utime, ?agent⟩
  case slot =>
    dsimp only
    rw [hposition]
    exact State.slotAtHeader_congr (tslot.trans uslot) (tlevel.trans ulevel) (tparams.trans uparams) _
  case agent =>
    dsimp only
    obtain ⟨es, hes, hmem, hlen⟩ := State.raiseEither_eq
      { u with map := (u.map.boundary h.bank).1, link := (u.link.watch u.agent.params h.heartbeat).1 }
      (u.map.boundary h.bank).2 (u.link.watch u.agent.params h.heartbeat).2
    refine ⟨es, ?_, ?_, hlen⟩
    · rw [State.boundary, hes]
      dsimp only
      rw [State.agent_raiseAll, List.foldl_append]
      dsimp only
      rw [uagent, ulink, LinkFramer.watch_link]
      rfl
    · rw [umap, ulink, uparams] at hmem
      exact hmem

/-- The kinds of event a superframe boundary raises, each under its condition. -/
theorem LinkFramer.boundaryCodes (l : LinkFramer) (m : MapStore) (p : NodeParams) (h : Header) (es : List Event)
    (hes : ∀ e, e ∈ es ↔ (m.boundary h.bank).2 = some e ∨ ((l.lockedHeader h).watch p h.heartbeat).2 = some e)
    (n : Nat) :
    (∃ e ∈ l.headerEvents h ++ es, e.kind.code = n) ↔
      (n = 2 ∧ positionOf h.hopCount ≠ l.position) ∨ (n = 3 ∧ h.frameIndex ≠ l.expected)
        ∨ (n = 4 ∧ h.bank ≠ m.active ∧ (m.bank h.bank).state = .ready)
        ∨ (n = 5 ∧ h.bank ≠ m.active ∧ (m.bank h.bank).state ≠ .ready ∧ m.misaligned = false)
        ∨ (n = 7 ∧ (l.reachesLimit p h.heartbeat ∨ l.reachesWarn p h.heartbeat
          ∨ l.heartbeatChanged h.heartbeat ∧ l.staleStage ≠ 0)) := by
  have hwatch : ∀ e, ((l.lockedHeader h).watch p h.heartbeat).2 = some e ↔
      (l.reachesLimit p h.heartbeat ∧ e = .heartbeat 2 (min (l.staleCount + 1) 255))
        ∨ (l.reachesWarn p h.heartbeat ∧ e = .heartbeat 1 (min (l.staleCount + 1) 255))
        ∨ (l.heartbeatChanged h.heartbeat ∧ l.staleStage ≠ 0 ∧ e = .heartbeat 0 l.staleCount) :=
    LinkFramer.watch_event (l.lockedHeader h) p h.heartbeat
  have hheader : ∀ e, e ∈ l.headerEvents h ↔
      (positionOf h.hopCount ≠ l.position ∧ e = .positionChanged l.position (positionOf h.hopCount))
        ∨ (h.frameIndex ≠ l.expected ∧ e = .indexSlip l.expected h.frameIndex) := by
    intro e
    unfold LinkFramer.headerEvents
    split_ifs with hp hi <;> simp_all
  simp only [List.mem_append, hheader, hes, MapStore.boundary_event, hwatch]
  constructor
  · rintro ⟨e, hmem, rfl⟩
    rcases hmem with
      (⟨hc, rfl⟩ | ⟨hc, rfl⟩) | (⟨hc, hc', rfl⟩ | ⟨hc, hc', hc'', rfl⟩) | ⟨hc, rfl⟩ | ⟨hc, rfl⟩ | ⟨hc, hc', rfl⟩ <;>
      simp [Event.kind, EventKind.code, *]
  · rintro (⟨rfl, hc⟩ | ⟨rfl, hc⟩ | ⟨rfl, hc, hc'⟩ | ⟨rfl, hc, hc', hc''⟩ | ⟨rfl, hc | hc | ⟨hc, hc'⟩⟩)
    · exact ⟨_, .inl (.inl ⟨hc, rfl⟩), rfl⟩
    · exact ⟨_, .inl (.inr ⟨hc, rfl⟩), rfl⟩
    · exact ⟨_, .inr (.inl (.inl ⟨hc, hc', rfl⟩)), rfl⟩
    · exact ⟨_, .inr (.inl (.inr ⟨hc, hc', hc'', rfl⟩)), rfl⟩
    · exact ⟨_, .inr (.inr (.inl ⟨hc, rfl⟩)), rfl⟩
    · exact ⟨_, .inr (.inr (.inr (.inl ⟨hc, rfl⟩))), rfl⟩
    · exact ⟨_, .inr (.inr (.inr (.inr ⟨hc, hc', rfl⟩))), rfl⟩

/-- A high byte of 0 in a Detail. -/
theorem zero_append_byte (b : Byte) : (0 : Byte) ++ b = b.setWidth 16 := by
  apply BitVec.eq_of_toNat_eq
  have hb := b.isLt
  rw [BitVec.toNat_append, BitVec.toNat_setWidth]
  simp
  omega

/-- The header of a frame raises at most two events. -/
theorem LinkFramer.length_headerEvents (l : LinkFramer) (h : Header) : (l.headerEvents h).length ≤ 2 := by
  unfold LinkFramer.headerEvents
  split_ifs <;> simp

theorem LinkFramer.map_record_headerEvents (l : LinkFramer) (h : Header) (stamp : BitVec 16) :
    (l.headerEvents h).map (Event.record · stamp) =
      (if positionOf h.hopCount = l.position then []
        else [(Event.positionChanged l.position (positionOf h.hopCount)).record stamp])
      ++ (if l.expected = h.frameIndex then [] else [(Event.indexSlip l.expected h.frameIndex).record stamp]) := by
  unfold LinkFramer.headerEvents
  rw [if_congr (eq_comm (a := l.expected)) rfl rfl]
  split_ifs <;> rfl

/-- The flags after a superframe boundary: those that were set, and the kinds it raises (R171). -/
theorem State.lockedBoundary_flags (s : State) (h : Header) (h0 : h.frameIndex = 0) {n : Nat} (hn : n ≠ 12) :
    (s.lockedHeader h).agent.flags.getLsbD n = true ↔ s.agent.flags.getLsbD n = true
      ∨ (n = 2 ∧ positionOf h.hopCount ≠ s.link.position) ∨ (n = 3 ∧ h.frameIndex ≠ s.link.expected)
      ∨ (n = 4 ∧ h.bank ≠ s.map.active ∧ (s.map.bank h.bank).state = .ready)
      ∨ (n = 5 ∧ h.bank ≠ s.map.active ∧ (s.map.bank h.bank).state ≠ .ready ∧ s.map.misaligned = false)
      ∨ (n = 7 ∧ (s.link.reachesLimit s.agent.params h.heartbeat ∨ s.link.reachesWarn s.agent.params h.heartbeat
        ∨ s.link.heartbeatChanged h.heartbeat ∧ s.link.staleStage ≠ 0)) := by
  obtain ⟨-, -, -, -, -, -, -, es, hagent, hes, -⟩ := s.lockedBoundary_spec h h0
  rw [← LinkFramer.boundaryCodes s.link s.map s.agent.params h es hes, hagent, Agent.flags_foldl_take _ _ hn,
    Bool.or_eq_true, List.any_eq_true]
  simp only [decide_eq_true_eq]

/-- The queue after a superframe boundary, with every kind admitted and room (R172). -/
theorem State.lockedBoundary_queue (s : State) (h : Header) (h0 : h.frameIndex = 0) (hmask : s.agent.mask = 0xFFF)
    (hroom : s.agent.queue.length ≤ 28) : ∃ es : List Event,
      (s.lockedHeader h).agent.queue = s.agent.queue
          ++ (s.link.headerEvents h).map (Event.record · (s.link.frameClock.setWidth 16))
          ++ es.map (Event.record · (s.link.frameClock.setWidth 16))
        ∧ ∀ e, e ∈ es ↔ (s.map.boundary h.bank).2 = some e
          ∨ ((s.link.lockedHeader h).watch s.agent.params h.heartbeat).2 = some e := by
  obtain ⟨-, -, -, -, -, -, -, es, hagent, hes, hlen⟩ := s.lockedBoundary_spec h h0
  have hheader := s.link.length_headerEvents h
  refine ⟨es, ?_, hes⟩
  rw [hagent, Agent.queue_foldl_take _ _ _ hmask (by simp; omega), List.map_append, List.append_assoc]

/-- The link after a boundary header in LOCKED, but for the three items the watch decides. -/
theorem LinkFramer.watch_lockedHeader {s : State} {b1 b3 b4 b5 b6 b7 b8 : Byte} {sent seven : List Sym}
    (hh : s.link.header = [b1, 0, b3, b4, b5, b6, b7]) (hd : s.link.delay = sent ++ seven)
    (h7 : seven.length = 7) {w : LinkFramer}
    (hw : w = (((s.headerByte b8).link.lockedHeader (headerOf b1 0 b3 b4 b5 b6 b7)).watch s.agent.params b4).1) :
    w = { s.link with
        header := [b1, 0, b3, b4, b5, b6, b7, b8], frame := .good 8 (b6.toNat % 4 * 256 + b7.toNat),
        heldLast := b3, cell := [], badHeaders := 0, heldBlackout := b1.getLsbD 2,
        position := if b5.toNat < 250 then b5 + 1 else 0, expected := if 0 < b3.toNat then 1 else 0,
        indexSlips := if s.link.expected = 0 then s.link.indexSlips else countUp s.link.indexSlips,
        delay := sent ++ (sentHeader b1 0 b3 b4 b5 b6 b7 b8).map .data,
        reference := some b4, staleCount := w.staleCount, staleStage := w.staleStage,
        staleCause := w.staleCause } := by
  have hlink := LinkFramer.watch_link ((s.headerByte b8).link.lockedHeader (headerOf b1 0 b3 b4 b5 b6 b7))
    s.agent.params b4
  have hslips : (if 0 = s.link.expected then s.link.indexSlips else countUp s.link.indexSlips)
      = if s.link.expected = 0 then s.link.indexSlips else countUp s.link.indexSlips :=
    if_congr eq_comm rfl rfl
  rw [← hw, LinkFramer.lockedHeader_headerByte hh hd h7, hslips] at hlink
  exact hlink

/-- Settles O18: link, Map Store and staging from the boundary's blocks; flags and records from its events. -/
theorem boundaryDecidesBankAndWatch : Obligations.BoundaryDecidesBankAndWatch := by
  unfold Obligations.BoundaryDecidesBankAndWatch
  intro s b1 b3 b4 b5 b6 b7 b8 sent seven hs hf hh hg hd h7
  have hs' : (s.headerByte b8).link.state = .locked := hs
  have htake : (s.headerByte b8).takeHeader (headerOf b1 0 b3 b4 b5 b6 b7)
      = (s.headerByte b8).lockedHeader (headerOf b1 0 b3 b4 b5 b6 b7) := by
    rw [State.takeHeader, hs']
  obtain ⟨hlink, hmap, hslot, hlevel, hgen, hsense, htime, es, hagent, -, -⟩ :=
    (s.headerByte b8).lockedBoundary_spec (headerOf b1 0 b3 b4 b5 b6 b7) rfl
  obtain ⟨hparams, hmask, -⟩ := Agent.foldl_take_frame
    ((s.headerByte b8).link.headerEvents (headerOf b1 0 b3 b4 b5 b6 b7) ++ es)
    (s.link.frameClock.setWidth 16) s.agent
  have hflags := @State.lockedBoundary_flags (s.headerByte b8) (headerOf b1 0 b3 b4 b5 b6 b7) rfl
  have hqueue := (s.headerByte b8).lockedBoundary_queue (headerOf b1 0 b3 b4 b5 b6 b7) rfl
  have hitems := LinkFramer.watch_items ((s.headerByte b8).link.lockedHeader (headerOf b1 0 b3 b4 b5 b6 b7))
    s.agent.params b4
  have hstage := LinkFramer.watch_stage_event
    ((s.headerByte b8).link.lockedHeader (headerOf b1 0 b3 b4 b5 b6 b7)) s.agent.params b4
  refine ⟨_, exec_goodHeader (by simp [hs]) hf hh hg, ?_⟩
  rw [htake]
  generalize (s.headerByte b8).lockedHeader (headerOf b1 0 b3 b4 b5 b6 b7) = t
    at hlink hmap hslot hlevel hgen hsense htime hagent hflags hqueue ⊢
  have hwatch := LinkFramer.watch_lockedHeader (b8 := b8) hh hd h7 hlink
  refine ⟨hwatch, ?flag2, ?flag3, ?others, hlevel, hgen, hsense, htime, hagent ▸ hparams, hagent ▸ hmask, hslot,
    ⟨?map, ?flag4, ?flag5⟩, ?watch, ?queue⟩
  case flag2 =>
    have hflag := hflags (n := 2) (by decide)
    simp at hflag
    exact hflag
  case flag3 =>
    have hflag := hflags (n := 3) (by decide)
    simp at hflag
    rw [ne_comm]
    exact hflag
  case others =>
    intro n hn
    simp only [List.mem_cons, List.not_mem_nil, or_false, not_or] at hn
    obtain ⟨h2, h3, h4, h5, h7, h12⟩ := hn
    have hflag := hflags h12
    simp only [h2, h3, h4, h5, h7, false_and, or_false] at hflag
    exact Bool.eq_iff_iff.2 hflag
  case map => exact hmap.trans (congrArg Prod.fst (MapStore.boundary_eq _ _))
  case flag4 =>
    have hflag := hflags (n := 4) (by decide)
    simp at hflag
    exact hflag
  case flag5 =>
    have hflag := hflags (n := 5) (by decide)
    simp at hflag
    exact hflag
  case watch =>
    obtain ⟨hstale, hchanged, hcause, hlimit, hwarn, hsame, hnone⟩ := hitems
    have hflag := hflags (n := 7) (by decide)
    simp at hflag
    rw [hlink]
    exact ⟨hstale, hchanged, hcause, hlimit, hwarn, hsame, hnone, hflag⟩
  case queue =>
    intro hm hroom
    obtain ⟨es', hq, hes⟩ := hqueue hm hroom
    have hrecord : ∀ e, e ∈ es' → e.record (s.link.frameClock.setWidth 16) ∈ t.agent.queue := by
      intro e he
      rw [hq]
      exact List.mem_append_right _ (List.mem_map_of_mem he)
    refine ⟨⟨es'.map (Event.record · (s.link.frameClock.setWidth 16)), ?_⟩, fun hn hr => ?_,
      fun hn hr hm => ?_, fun hst => ?_⟩
    · rw [hq, LinkFramer.map_record_headerEvents, ← List.append_assoc]
      rfl
    · rw [← zero_append_byte]
      exact hrecord (.bankSwitched _ _) ((hes _).2 (.inl ((MapStore.boundary_event _ _ _).2 (.inl ⟨hn, hr, rfl⟩))))
    · rw [← zero_append_byte]
      exact hrecord (.swapRefused _ _)
        ((hes _).2 (.inl ((MapStore.boundary_event _ _ _).2 (.inr ⟨hn, hr, hm, rfl⟩))))
    · rw [hlink] at hst ⊢
      exact hrecord (.heartbeat _ _) ((hes _).2 (.inr (hstage hst)))

end Sys2Proof.Machine
end

section
/-! PROOFS. The cell that is passed, the frame timeout, and the counters with the pending resets (spec/01 sections 1.3,
1.4 and 1.8; spec/07 sections 7.1, 7.6 and 7.7). -/

namespace Sys2Proof.Machine

/-! ## Cells the Agent has nothing to do with -/

/-- Sixteen bytes whose last is not the check of the others are no cell (R19). -/
theorem cellOf_of_bad {cell : List Byte} (hlen : cell.length = 15) {b : Byte} (hb : b ≠ crc8 cell) :
    cellOf (cell ++ [b]) = none := by
  match cell, hlen with
  | [_, _, _, _, _, _, _, _, _, _, _, _, _, _, _], _ => exact if_neg hb

/-- Fifteen bytes with their check are a cell, whose Destination is the first byte and whose Kind the second
(section 9.2). -/
theorem cellOf_of_good {cell : List Byte} (hlen : cell.length = 15) {b : Byte} (hb : b = crc8 cell) :
    ∃ kind code q, cellOf (cell ++ [b]) = some (kind, code, q) ∧ cell[0]? = some q.destination
      ∧ cell[1]? = some kind := by
  match cell, hlen with
  | [_, _, _, _, _, _, _, _, _, _, _, _, _, _, _], _ => exact ⟨_, _, _, if_pos hb, rfl, rfl⟩

/-- A cell of another Kind, or for another node, is passed unaltered (R146, R182). -/
theorem State.agentCell_of_passed {s : State} {kind code : Byte} {q : Req}
    (h : kind ≠ 0x01 ∨ q.destination ≠ s.link.position ∧ q.destination ≠ 255) :
    s.agentCell kind code q = s := by
  unfold State.agentCell
  split
  · next hk =>
    obtain ⟨hpos, hbroadcast⟩ := h.resolve_left (not_not.2 hk)
    split
    · rw [State.agentRequest, if_neg hpos, if_neg hbroadcast]
    · rw [State.agentUnknown, if_neg hpos, if_neg hbroadcast]
  · rfl

/-- At position 0 no cell is handed to the Agent (R19). -/
theorem State.handsCell_of_position_zero {s : State} (h : s.link.position = 0) : s.handsCell = false :=
  State.handsCell_of_not fun hc => hc.2.2.1 h

/-- Settles O19: the cell check decides, and then position, Kind and Destination. -/
theorem cellIsPassedUnaltered : Obligations.CellIsPassedUnaltered := by
  unfold Obligations.CellIsPassedUnaltered
  intro s b slots hlocked hf hlen
  rw [exec_cellLast s b slots hlocked hf]
  refine ⟨fun hb => ?incorrect, fun hb hpassed => ?correct⟩
  case incorrect =>
    simp only [State.cellLast, cellOf_of_bad hlen hb]
    rfl
  case correct =>
    obtain ⟨kind, code, q, hcell, hdestination, hkind⟩ := cellOf_of_good hlen hb
    simp only [State.cellLast, hcell]
    refine congrArg _ ?_
    show (if State.handsCell { s with link := s.link.cellArrived b slots } then
        State.agentCell { s with link := s.link.cellArrived b slots } kind code q
      else { s with link := s.link.cellArrived b slots }) = { s with link := s.link.cellArrived b slots }
    rcases hpassed with hpos | hk | ⟨hpos, hbroadcast⟩
    · rw [State.handsCell_of_position_zero (s := { s with link := s.link.cellArrived b slots }) hpos]
      rfl
    · have hpass : kind ≠ 0x01 := fun h => hk (by rw [hkind, h])
      rw [State.agentCell_of_passed (.inl hpass), ite_self]
    · rw [hdestination, Ne, Option.some_inj] at hpos hbroadcast
      rw [State.agentCell_of_passed (s := { s with link := s.link.cellArrived b slots }) (.inr ⟨hpos, hbroadcast⟩),
        ite_self]

/-! ## Counters and pending resets -/

/-- A link counter stops at 65535 (R28). -/
theorem countUp_toNat (counter : BitVec 16) : (countUp counter).toNat = min (counter.toNat + 1) 65535 := by
  have hlt := counter.isLt
  unfold countUp
  split
  · next h => rw [h]; rfl
  · next h =>
    have hne : counter.toNat ≠ 65535 := fun hh => h (BitVec.eq_of_toNat_eq hh)
    rw [BitVec.toNat_add]
    simp
    omega

/-- An addressed request row runs its request and writes the reply (R147). -/
theorem exec_addressed {i : Instr} {c : RequestCode} {p q : Req} {s : State} (h : requestRow i = some (c, p))
    (ha : s.addressed q) (hp : p.destination = q.destination) :
    exec i s = .next ((c.run p s).1.writeReply c.byte p (c.run p s).2) := by
  rw [exec_requestRow h, State.request_addressed ha c p hp]
  rfl

/-- READ_COUNTERS outside its Objects and options (R164). -/
theorem reqReadCounters_range {q : Req} (h : 2 ≤ q.object.toNat ∨ 2 ≤ q.args.a1.toNat) (s : State) :
    reqReadCounters q s = (s, answer q .range) := by
  unfold reqReadCounters
  split
  · next hobj hflag =>
    rcases h with h | h
    · omega
    · rw [flagOf_of_two_le h] at hflag
      cases hflag
  · next hobj hflag =>
    rcases h with h | h
    · omega
    · rw [flagOf_of_two_le h] at hflag
      cases hflag
  · rfl

/-- READ_COUNTERS of the CHECKS group (R164). -/
theorem reqReadCounters_checks {q : Req} (hobj : q.object = 0) (hv : q.args.a1.toNat ≤ 1) (s : State) :
    reqReadCounters q s =
      ({ s with link := if q.args.a1.toNat = 1 then s.link.clearChecks else s.link },
        ⟨.ok, q.object, s.link.headerErrors, s.link.checksArgs, 0⟩) := by
  have h0 : q.object.toNat = 0 := by rw [hobj]; rfl
  simp only [reqReadCounters, h0, flagOf_of_le hv, decide_eq_true_eq]
  split <;> rfl

/-- READ_COUNTERS of the CLOCK group; the frame clock is never cleared (R27, R164). -/
theorem reqReadCounters_clock {q : Req} (hobj : q.object = 1) (hv : q.args.a1.toNat ≤ 1) (s : State) :
    reqReadCounters q s =
      ({ s with link := if q.args.a1.toNat = 1 then { s.link with indexSlips := 0 } else s.link },
        ⟨.ok, q.object, s.link.indexSlips, s.link.clockArgs, 0⟩) := by
  have h1 : q.object.toNat = 1 := by rw [hobj]; rfl
  simp only [reqReadCounters, h1, flagOf_of_le hv, decide_eq_true_eq]
  split <;> rfl

/-- The frame clock is read in two words, the more significant first (R184). -/
theorem clockArgs_words (l : LinkFramer) :
    (wordAt l.clockArgs.a1 l.clockArgs.a2).toNat * 65536 + (wordAt l.clockArgs.a3 l.clockArgs.a4).toNat
      = l.frameClock.toNat := by
  have hlt := l.frameClock.isLt
  simp only [LinkFramer.clockArgs, wordAt, BitVec.toNat_ofNat, BitVec.extractLsb'_toNat, Nat.shiftRight_eq_div_pow]
  omega

/-- Settles O60: counter, groups and scopes. -/
theorem countersAndPendingResets : Obligations.CountersAndPendingResets := by
  unfold Obligations.CountersAndPendingResets
  refine ⟨countUp_toNat, fun q s ha => ?_⟩
  have hread := exec_addressed (i := .readCounters q) rfl ha rfl
  simp only [RequestCode.run] at hread
  dsimp only
  refine ⟨fun h => ?range, fun hobj hv => ⟨s.link.checksArgs, ?checks, ?_, ?_, ?_⟩,
    fun hobj hv => ⟨s.link.clockArgs, ?clock, clockArgs_words s.link, rfl, rfl⟩,
    ?outputs, ?tables, ?events, ?node⟩
  case range => rw [hread, reqReadCounters_range h]; rfl
  case checks => rw [hread, reqReadCounters_checks hobj hv]; rfl
  case clock => rw [hread, reqReadCounters_clock hobj hv]; rfl
  case outputs =>
    exact exec_addressed (i := .resetNodeOutputs q) (c := .resetNode) (p := { q with object := 0x00 }) rfl ha rfl
  case tables =>
    exact exec_addressed (i := .resetNodeTables q) (c := .resetNode) (p := { q with object := 0x01 }) rfl ha rfl
  case events =>
    exact exec_addressed (i := .resetNodeEvents q) (c := .resetNode) (p := { q with object := 0x02 }) rfl ha rfl
  case node =>
    exact exec_addressed (i := .resetNodeScopeNode q) (c := .resetNode) (p := { q with object := 0x03 }) rfl ha rfl
  all_goals exact wordAt_hiByte_loByte _

/-! ## The frame timeout -/

theorem exec_frameTimeoutExpiry (sns : Byte) (s : State) :
    exec (.frameTimeoutExpiry sns) s
      = .next (if s.link.expires then (s.setPins sns).expire else s.setPins sns) := by
  rfl

theorem exec_frameTimeoutExpiry_of_expired (sns : Byte) {s : State} {n : Nat} (h : s.link.timeout = some n)
    (hn : n ≤ 1) : exec (.frameTimeoutExpiry sns) s = .next (s.setPins sns).expire := by
  rw [exec_frameTimeoutExpiry, if_pos (by simp [LinkFramer.expires, h, hn])]

/-- A stopped timeout, or one with base ticks left, does not expire (R8). -/
theorem LinkFramer.expires_eq_false {l : LinkFramer}
    (h : l.timeout = none ∨ ∃ n, l.timeout = some n ∧ 2 ≤ n) : l.expires = false := by
  rcases h with h | ⟨n, h, hn⟩
  · simp [LinkFramer.expires, h]
  · have hleft : ¬ n ≤ 1 := by omega
    simp [LinkFramer.expires, h, hleft]

theorem LinkFramer.goDown_of_not_truncated (l : LinkFramer) : l.goDown false = l.down := by
  simp [LinkFramer.goDown, LinkFramer.down]

theorem LinkFramer.goDown_of_truncated (l : LinkFramer) : l.goDown true = { l.down with abortNext := true } := by
  simp [LinkFramer.goDown, LinkFramer.down]

/-- DOWN entered: the link taken down and both buffers freed (R8, R77). -/
def State.linkDown (s : State) (truncated : Bool) : State :=
  { s with link := s.link.goDown truncated, slot := s.slot.freeBoth }

theorem State.expire_of_down {s : State} (h : s.link.state = .down) : s.expire = s := by
  simp only [State.expire, h]

theorem State.expire_of_unlocked {s : State} (h : s.link.state = .hunt ∨ s.link.state = .verify) :
    s.expire = { s with link := s.link.down } := by
  rcases h with h | h <;> simp only [State.expire, h, LinkFramer.goDown_of_not_truncated]

theorem State.expire_of_locked {s : State} (h : s.link.state = .locked) :
    s.expire = s.unlockForTimeout.linkDown s.link.inFlight := by
  simp only [State.expire, h, State.linkDown]

/-- No frame in flight and no reset pending: the expiry raises LINK_STATE (R13). -/
theorem State.unlockForTimeout_of_not_inFlight {s : State} (hf : s.link.inFlight = false)
    (hr : s.agent.resetScope = none) : s.unlockForTimeout = s.raise (.linkState .locked .down) := by
  simp [State.unlockForTimeout, hr, hf]

/-- A frame in flight and no reset pending: it is truncated as well (R17). -/
theorem State.unlockForTimeout_of_no_reset {s : State} (hf : s.link.inFlight = true)
    (hr : s.agent.resetScope = none) :
    s.unlockForTimeout = s.cutFrame.raise (.linkState .locked .down) := by
  simp only [State.unlockForTimeout, hr, Option.bind_none, State.link_raise, hf, if_true]
  exact State.truncate_of_no_reset (s := s.raise _) (by simp [hr])

/-! ### The frame timeout with a reset pending -/

/-- A reset but for the event it places (R166). -/
def State.resetBlocks (s : State) (scope : Scope) : State :=
  { s with
    link := s.link.nodeReset scope
    map := s.map.nodeReset scope
    slot := s.slot.nodeReset scope
    level := s.level.nodeReset scope
    generators := generatorsReset s.generators scope
    sense := s.sense.nodeReset scope
    agent := { s.agent.nodeReset scope with resetScope := none } }

theorem State.applyReset_eq (s : State) (scope : Scope) :
    s.applyReset scope = (s.resetBlocks scope).raise? (s.raisedByReset scope) := by
  rfl

/-- The number of free choices taken has no part in a reset. -/
theorem State.applyReset_choices (s : State) (n : Nat) (scope : Scope) :
    State.applyReset { s with choices := n } scope = { s.applyReset scope with choices := n } := by
  have hraise (t : State) (e : Option Event) :
      State.raise? { t with choices := n } e = { t.raise? e with choices := n } := by
    cases e <;> rfl
  exact hraise (s.resetBlocks scope) (s.raisedByReset scope)

/-- The fall to DOWN and a reset can be exchanged: they agree on the items they share. -/
theorem State.linkDown_applyReset (s : State) (scope : Scope) (truncated : Bool) :
    (s.applyReset scope).linkDown truncated = (s.linkDown truncated).applyReset scope := by
  have hraise (t : State) (e : Option Event) : (t.raise? e).linkDown truncated = (t.linkDown truncated).raise? e := by
    cases e <;> rfl
  have hblocks : (s.resetBlocks scope).linkDown truncated = (s.linkDown truncated).resetBlocks scope := by
    cases scope <;> rfl
  have hrecord : (s.linkDown truncated).raisedByReset scope = s.raisedByReset scope := by
    cases scope <;> rfl
  rw [State.applyReset_eq, hraise, hblocks, State.applyReset_eq, hrecord]

/-- A frame in flight and a reset pending: the truncation applies the reset, after LINK_STATE, or before it where the
reset places a record of its own (R168, R172). -/
theorem State.unlockForTimeout_of_reset {s : State} (hf : s.link.inFlight = true) {scope : Scope}
    (hr : s.agent.resetScope = some scope) :
    ∃ n, s.unlockForTimeout
          = { (s.cutFrame.raise (.linkState .locked .down)).applyReset scope with choices := n }
        ∨ s.unlockForTimeout = { (s.cutFrame.applyReset scope).raise (.linkState .locked .down) with choices := n }
          ∧ s.raisedByReset scope ≠ none := by
  have hlinkFirst : ∀ n, (State.raise { s with choices := n } (.linkState .locked .down)).truncate
      = { (s.cutFrame.raise (.linkState .locked .down)).applyReset scope with choices := n } := fun n =>
    (State.truncate_of_reset (scope := scope) (by simp [hr])).trans
      (State.applyReset_choices (s.cutFrame.raise (.linkState .locked .down)) n scope)
  have hresetFirst : ∀ n, State.truncate { s with choices := n }
      = { s.cutFrame.applyReset scope with choices := n } :=
    fun n => (State.truncate_of_reset (s := { s with choices := n }) hr).trans
      (State.applyReset_choices s.cutFrame n scope)
  unfold State.unlockForTimeout
  rw [hr, Option.bind_some]
  cases he : s.raisedByReset scope with
  | none =>
    refine ⟨s.choices, .inl ?_⟩
    simp only [State.link_raise, hf, if_true]
    exact hlinkFirst s.choices
  | some e =>
    refine ⟨s.choices + 1, ?_⟩
    simp only [State.link_raise, hf, if_true]
    split
    · exact .inl (hlinkFirst _)
    · exact .inr ⟨congrArg (State.raise · _) (hresetFirst _), nofun⟩

/-- The fall to DOWN with a frame in flight and a reset pending: LINK_STATE and the reset in one order or the other
(R168, R172). -/
theorem State.expire_of_reset {s : State} (hs : s.link.state = .locked) (hf : s.link.inFlight = true) {scope : Scope}
    (hr : s.agent.resetScope = some scope) :
    ∃ n, s.expire
          = { ((s.cutFrame.linkDown true).raise (.linkState .locked .down)).applyReset scope with choices := n }
        ∨ s.expire
            = { ((s.cutFrame.linkDown true).applyReset scope).raise (.linkState .locked .down) with choices := n }
          ∧ s.raisedByReset scope ≠ none := by
  obtain ⟨n, e | ⟨e, hrecord⟩⟩ := State.unlockForTimeout_of_reset hf hr
  · refine ⟨n, .inl ?_⟩
    rw [State.expire_of_locked hs, hf, e]
    exact congrArg (fun t : State => { t with choices := n })
      ((s.cutFrame.raise (.linkState .locked .down)).linkDown_applyReset scope true)
  · refine ⟨n, .inr ⟨?_, hrecord⟩⟩
    rw [State.expire_of_locked hs, hf, e]
    exact congrArg (fun t : State => { t.raise (.linkState .locked .down) with choices := n })
      (s.cutFrame.linkDown_applyReset scope true)

/-- What a reset after an event leaves is what it leaves without, but for the Agent's records. -/
theorem State.applyReset_raise_blocks (s : State) (e : Event) (scope : Scope) :
    ((s.raise e).applyReset scope).link = (s.applyReset scope).link
      ∧ ((s.raise e).applyReset scope).map = (s.applyReset scope).map
      ∧ ((s.raise e).applyReset scope).slot = (s.applyReset scope).slot
      ∧ ((s.raise e).applyReset scope).level = (s.applyReset scope).level
      ∧ ((s.raise e).applyReset scope).generators = (s.applyReset scope).generators
      ∧ ((s.raise e).applyReset scope).sense = (s.applyReset scope).sense
      ∧ ((s.raise e).applyReset scope).time = (s.applyReset scope).time
      ∧ ((s.raise e).applyReset scope).agent.params = (s.applyReset scope).agent.params := by
  obtain ⟨hlink, hmap, hslot, hlevel, hgen, hsense, htime, -⟩ := s.applyReset_blocks scope
  obtain ⟨hlink', hmap', hslot', hlevel', hgen', hsense', htime', -⟩ := (s.raise e).applyReset_blocks scope
  refine ⟨hlink'.trans hlink.symm, hmap'.trans hmap.symm, hslot'.trans hslot.symm, hlevel'.trans hlevel.symm,
    hgen'.trans hgen.symm, hsense'.trans hsense.symm, htime'.trans htime.symm, ?_⟩
  rw [State.params_applyReset, State.params_applyReset, State.agent_raise, Agent.params_take]

/-- The fall to DOWN of a cut frame. -/
theorem State.linkDown_cutFrame (s : State) :
    s.cutFrame.linkDown true
      = { s with
          link := { s.link.down with truncatedFrames := countUp s.link.truncatedFrames, abortNext := true }
          slot := s.slot.afterBadEnd.bothFree } := by
  rw [State.linkDown, LinkFramer.goDown_of_truncated]
  rfl

/-- Settles O31: the expiry by link state, then by the frame in flight and the pending reset. -/
theorem timeoutExpiryTakesTheLinkDown : Obligations.TimeoutExpiryTakesTheLinkDown := by
  unfold Obligations.TimeoutExpiryTakesTheLinkDown
  intro s sns
  refine ⟨?still, fun n htime hn => ?expired⟩
  case still =>
    rintro (htime | hdown) <;> rw [exec_frameTimeoutExpiry]
    · rw [LinkFramer.expires_eq_false htime]
      rfl
    · rw [State.expire_of_down (s := s.setPins sns) hdown, ite_self]
      rfl
  case expired =>
    rw [exec_frameTimeoutExpiry_of_expired sns htime hn]
    refine ⟨fun hs => ?unlocked, fun hs hf hr => ?rest, fun place slots hs hf hr => ?flight,
      fun place slots scope hs hf hr => ?reset⟩
    case unlocked =>
      rw [State.expire_of_unlocked (s := s.setPins sns) hs]
      rfl
    case rest =>
      have hflight : (s.setPins sns).link.inFlight = false := LinkFramer.inFlight_of_not_good hf
      rw [State.expire_of_locked (s := s.setPins sns) hs, hflight,
        State.unlockForTimeout_of_not_inFlight hflight hr, State.linkDown, LinkFramer.goDown_of_not_truncated]
      rfl
    case flight =>
      have hflight : (s.setPins sns).link.inFlight = true := LinkFramer.inFlight_of_good hs hf
      rw [State.expire_of_locked (s := s.setPins sns) hs, hflight, State.unlockForTimeout_of_no_reset hflight hr]
      exact congrArg (fun t => Host.Outcome.next (State.raise t (.linkState .locked .down)))
        (s.setPins sns).linkDown_cutFrame
    case reset =>
      have hflight : (s.setPins sns).link.inFlight = true := LinkFramer.inFlight_of_good hs hf
      refine ⟨_, rfl, ?_⟩
      dsimp only
      obtain ⟨n, e | ⟨e, hrecord⟩⟩ := State.expire_of_reset (s := s.setPins sns) hs hflight hr
      · rw [State.linkDown_cutFrame] at e
        rw [e]
        obtain ⟨hlink, hmap, hslot, hlevel, hgen, hsense, htime, hparams⟩ := State.applyReset_raise_blocks _ _ scope
        exact ⟨hlink, hmap, hslot, hlevel, hgen, hsense, htime, hparams, State.resetScope_applyReset _ scope,
          .inl rfl, fun _ => rfl⟩
      · rw [State.linkDown_cutFrame] at e
        rw [e]
        refine ⟨rfl, rfl, rfl, rfl, rfl, rfl, rfl, Agent.params_take _ _ _, ?_, .inr rfl, ?_⟩
        · exact (Agent.resetScope_take _ _ _).trans (State.resetScope_applyReset _ scope)
        · rintro (rfl | ⟨rfl, howed⟩)
          · exact absurd rfl hrecord
          · exact absurd howed hrecord

end Sys2Proof.Machine
end

section
/-! PROOFS. The Map Store stays in order (O6): what each part of a step does to it (spec/02, sections 2.1 to 2.5). -/

namespace Sys2Proof.Machine

/-! ## The end of a frame -/

/-- A reset keeps the Map Store or returns it to its power-on value (R53). -/
theorem MapStore.inOrder_nodeReset {m : MapStore} (h : m.inOrder) (scope : Scope) : (m.nodeReset scope).inOrder := by
  cases scope with
  | outputs | events => exact h
  | tables | node => exact MapStore.inOrder_powerOn

theorem State.mapInOrder_endFrame {s : State} (h : s.map.inOrder) : s.endFrame.map.inOrder := by
  unfold State.endFrame
  split
  · exact h
  · next scope _ =>
    rw [(s.applyReset_blocks scope).2.1]
    exact MapStore.inOrder_nodeReset h scope

theorem State.mapInOrder_truncate {s : State} (h : s.map.inOrder) : s.truncate.map.inOrder :=
  State.mapInOrder_endFrame h

theorem State.mapInOrder_endChecked {s : State} (h : s.map.inOrder) (b : Byte) :
    (s.endChecked b).map.inOrder := by
  by_cases hc : word16 s.link.checkByte b = s.link.receivedCheck
  · rw [State.endChecked_of_correct hc]
    exact State.mapInOrder_endFrame h
  · rw [State.endChecked_of_incorrect hc]
    exact State.mapInOrder_endFrame h

/-! ## Headers -/

@[simp] theorem State.map_badHeader (s : State) : s.badHeader.map = s.map :=
  s.badHeader_frame.2.2.2.1

@[simp] theorem State.map_raise? (s : State) (e : Option Event) : (s.raise? e).map = s.map :=
  (s.raise?_frame e).2.1

@[simp] theorem State.map_boundary (s : State) (h : Header) : (s.boundary h).map = (s.map.boundary h.bank).1 :=
  (s.boundary_frame h).2.1

/-- A header taken in LOCKED swaps the banks at most (R22, R47). -/
theorem State.mapInOrder_afterLockedHeader {s : State} (hm : s.map.inOrder) (h : Header) :
    (s.afterLockedHeader h).map.inOrder := by
  unfold State.afterLockedHeader
  rw [State.decideActing_eq]
  dsimp only
  split
  · rw [State.map_boundary]
    exact MapStore.boundary_inOrder hm h.bank
  · exact hm

theorem State.mapInOrder_takeHeader {s : State} (hm : s.map.inOrder) (h : Header) :
    (s.takeHeader h).map.inOrder := by
  unfold State.takeHeader
  split
  · exact hm
  · exact hm
  · split
    · unfold State.enterLocked
      apply State.mapInOrder_afterLockedHeader
      exact hm
    · exact hm
  · unfold State.lockedHeader
    apply State.mapInOrder_afterLockedHeader
    rw [State.map_raise?, State.map_raise?]
    exact hm

theorem State.mapInOrder_headerEighth {s : State} (h : s.map.inOrder) (b : Byte) :
    (s.headerEighth b).map.inOrder := by
  unfold State.headerEighth
  dsimp only
  split
  · exact State.mapInOrder_takeHeader (s := s.headerByte b) h _
  · rw [State.map_badHeader]
    exact h

/-! ## The cell and the Agent -/

theorem State.mapInOrder_agentRequest {s : State} (h : s.map.inOrder) (c : RequestCode) (q : Req) :
    (s.agentRequest c q).map.inOrder := by
  have hrun := RequestCode.run_mapInOrder c q s h
  rcases s.agentRequest_cases c q with e | e | e | e <;> rw [e]
  · exact h
  · exact h
  · exact hrun
  · rw [State.map_writeReply]
    exact hrun

theorem State.mapInOrder_agentCell {s : State} (h : s.map.inOrder) (kind code : Byte) (q : Req) :
    (s.agentCell kind code q).map.inOrder := by
  rcases s.agentCell_cases kind code q with e | e | e | ⟨c, e⟩ <;> rw [e]
  · exact h
  · exact h
  · rw [State.map_writeReply]
    exact h
  · exact State.mapInOrder_agentRequest h c q

theorem State.mapInOrder_cellLast {s : State} (h : s.map.inOrder) (b : Byte) (slots : Nat) :
    (s.cellLast b slots).map.inOrder := by
  unfold State.cellLast
  dsimp only
  split
  · exact h
  · split
    · apply State.mapInOrder_agentCell
      exact h
    · exact h

/-! ## Slots -/

@[simp] theorem State.map_perform (s : State) (entry : Entry) (received sent : Byte) :
    (s.perform entry received sent).1.map = s.map := by
  unfold State.perform
  split
  · rfl
  · unfold State.afterInsert
    split <;> rfl

@[simp] theorem State.map_walkSlot (number : Nat) (received : Byte) (entries : List Entry) :
    ∀ (s : State) (sent : Byte), (State.walkSlot number received entries s sent).1.map = s.map := by
  induction entries with
  | nil => exact fun _ _ => rfl
  | cons entry rest ih =>
    intro s sent
    unfold State.walkSlot
    split
    · exact (ih _ _).trans (s.map_perform entry received sent)
    · rfl

/-- The slot actions read the active bank and leave the Map Store alone (R59). -/
@[simp] theorem State.map_slotByte (s : State) (b : Byte) (place slots : Nat) :
    (s.slotByte b place slots).map = s.map := by
  show (s.slotActions (place - 25) b).1.map = s.map
  unfold State.slotActions
  split
  · rw [State.map_walkSlot]
  · rfl

/-! ## Symbols -/

theorem State.mapInOrder_flightByte {s : State} (h : s.map.inOrder) (b : Byte) (place slots : Nat) :
    (s.flightByte b place slots).map.inOrder := by
  unfold State.flightByte
  split_ifs
  · exact h
  · exact State.mapInOrder_cellLast h b slots
  · rw [State.map_slotByte]
    exact h
  · exact h
  · exact State.mapInOrder_endChecked h b

theorem State.mapInOrder_receiveByte {s : State} (h : s.map.inOrder) (b : Byte) :
    (s.receiveByte b).map.inOrder := by
  by_cases hd : s.link.state = .down
  · rw [State.receiveByte_of_down hd]
    exact h
  cases hf : s.link.frame with
  | between => rw [State.receiveByte_of_between hd hf]; exact h
  | bad => rw [State.receiveByte_of_bad hd hf]; exact h
  | header =>
    by_cases hl : s.link.header.length < 7
    · rw [State.receiveByte_of_header hd hf hl]
      exact h
    · rw [State.receiveByte_of_seven hd hf (by omega)]
      exact State.mapInOrder_headerEighth h b
  | good place slots =>
    by_cases hl : s.link.state = .locked
    · rw [State.receiveByte_of_locked hl hf]
      exact State.mapInOrder_flightByte h b _ slots
    · rw [State.receiveByte_of_pass hd hl hf]
      exact h

theorem State.mapInOrder_receiveEnd {s : State} (h : s.map.inOrder) (sym : Sym) :
    (s.receiveEnd sym).map.inOrder := by
  by_cases hd : s.link.state = .down
  · rw [State.receiveEnd_of_down hd]
    exact h
  cases hf : s.link.frame with
  | between => rw [State.receiveEnd_of_between hd hf]; exact h
  | bad => rw [State.receiveEnd_of_bad hd hf]; exact h
  | header =>
    rw [State.receiveEnd_of_header hd hf, State.map_badHeader]
    exact h
  | good place slots =>
    by_cases hl : s.link.state = .locked
    · rw [State.receiveEnd_of_locked hl hf]
      exact State.mapInOrder_truncate h
    · rw [State.receiveEnd_of_pass hd hl hf]
      exact h

theorem State.mapInOrder_endForMarker {s : State} (h : s.map.inOrder) : s.endForMarker.map.inOrder := by
  unfold State.endForMarker
  split
  · exact h
  · rw [State.map_badHeader]
    exact h
  · exact h
  · split
    · exact State.mapInOrder_truncate h
    · exact h

/-! ## Timeout and ticks -/

/-- The expiry ends the frame in flight, in either order with LINK_STATE (R8, R168). -/
theorem State.mapInOrder_expire {s : State} (h : s.map.inOrder) : s.expire.map.inOrder := by
  have ended : ∀ t : State, t.map.inOrder → (if t.link.inFlight then t.truncate else t : State).map.inOrder := by
    intro t ht
    split
    · exact State.mapInOrder_truncate ht
    · exact ht
  have unlocked : s.unlockForTimeout.map.inOrder := by
    unfold State.unlockForTimeout
    dsimp only
    split
    · exact ended _ h
    · split
      · exact ended _ h
      · exact ended { s with choices := s.choices + 1 } h
  unfold State.expire
  split
  · exact h
  · exact unlocked
  · exact h
  · exact h

/-- A base tick leaves the Map Store alone. -/
@[simp] theorem State.map_baseTick (s : State) (sns : Byte) : (s.baseTick sns).map = s.map := by
  rw [State.baseTick_eq]

/-! ## Every effect -/

theorem State.mapInOrder_of_effect (s t : State) (he : s.Effect t) (h : s.map.inOrder) : t.map.inOrder := by
  cases he with
  | restart sns => exact MapStore.inOrder_powerOn
  | marker sns => exact State.mapInOrder_endForMarker (s := s.setPins sns) h
  | byte b => exact State.mapInOrder_receiveByte h b
  | lastByte b sns => exact State.mapInOrder_receiveByte (s := s.setPins sns) h b
  | earlyEnd sym sns => exact State.mapInOrder_receiveEnd (s := s.setPins sns) h sym
  | send | noExpiry | noStepTick => exact h
  | expiry sns _ => exact State.mapInOrder_expire (s := s.setPins sns) h
  | baseTick sns => rw [State.map_baseTick]; exact h
  | stepTick _ =>
    obtain ⟨-, -, emap, -⟩ := s.stepOperation_frame
    dsimp only
    rw [emap]
    exact h
  | periodEnd channel | dutyEnd channel | pwmClock channel =>
    rw [State.onGenerator_frame]
    exact h
  | copyEntry => exact MapStore.copyEntry_inOrder h
  | copyDone part => exact State.complete_inOrder part h (MapStore.copyDone_inOrder h)
  | examineEntry => exact MapStore.examineEntry_inOrder h
  | commitDone part => exact State.complete_inOrder part h (MapStore.commitDone_inOrder h)
  | request c q =>
    unfold State.request
    split
    · exact State.mapInOrder_agentRequest h c q
    · exact h

/-- Settles O6: each effect keeps the Map Store in order, and the waiting commands do not bear on it. -/
theorem mapStoreStaysInOrder : Obligations.MapStoreStaysInOrder := by
  unfold Obligations.MapStoreStaysInOrder
  exact step_keeps (P := fun s => s.map.inOrder) (fun _ _ h => h) State.mapInOrder_of_effect

end Sys2Proof.Machine
end

section
/-! PROOFS. The table operation unit (O44, O45): one entry copied or examined, and the completion of a COPY or a COMMIT,
whole and in its two parts (spec/02, section 2.4; spec/08, section 8.5). -/

namespace Sys2Proof.Machine

/-! ## One entry -/

/-- Without a COPY in flight nothing is copied (R42). -/
theorem MapStore.copyEntry_of_no_copy {m : MapStore} (h : ∀ op, m.op = some op → op.kind ≠ .copy) :
    m.copyEntry = m := by
  unfold MapStore.copyEntry
  split
  · next ho => exact absurd rfl (h _ ho)
  · rfl

/-- Past the last entry of the source nothing is copied (R42). -/
theorem MapStore.copyEntry_of_end {m : MapStore} {target : BankName} {progress : Nat} {found : Option CommitFault}
    (ho : m.op = some ⟨.copy, target, progress, found⟩)
    (h : (m.bank target.other).entries.length ≤ progress) : m.copyEntry = m := by
  simp only [MapStore.copyEntry, ho, List.getElem?_eq_none h]

/-- The source's entry at the progress index follows in the target (R42). -/
theorem MapStore.copyEntry_of_entry {m : MapStore} {target : BankName} {progress : Nat}
    {found : Option CommitFault} {entry : Entry} (ho : m.op = some ⟨.copy, target, progress, found⟩)
    (h : (m.bank target.other).entries[progress]? = some entry) :
    m.copyEntry =
      { m.setBank target { m.bank target with entries := (m.bank target).entries ++ [entry] } with
        op := some ⟨.copy, target, progress + 1, found⟩ } := by
  simp only [MapStore.copyEntry, ho, h]

/-- Without a COMMIT in flight that still walks nothing is examined (R44). -/
theorem MapStore.examineEntry_of_no_walk {m : MapStore}
    (h : ∀ op, m.op = some op → op.kind ≠ .commit ∨ op.found ≠ none) : m.examineEntry = m := by
  unfold MapStore.examineEntry
  split
  · next ho => exact absurd (h _ ho) (by simp)
  · rfl

/-- Past the last entry nothing is examined (R44). -/
theorem MapStore.examineEntry_of_end {m : MapStore} {target : BankName} {progress : Nat}
    (ho : m.op = some ⟨.commit, target, progress, none⟩) (h : (m.bank target).count ≤ progress) :
    m.examineEntry = m := by
  simp only [MapStore.examineEntry, ho, if_neg (Nat.not_lt.2 h)]

/-- The walk moves on from an entry without a fault (R44). -/
theorem MapStore.examineEntry_of_good {m : MapStore} {target : BankName} {progress : Nat}
    (ho : m.op = some ⟨.commit, target, progress, none⟩) (h : progress < (m.bank target).count)
    (hf : commitFault (m.bank target).entries progress = none) :
    m.examineEntry = { m with op := some ⟨.commit, target, progress + 1, none⟩ } := by
  simp only [MapStore.examineEntry, ho, if_pos h, hf]

/-- The walk stops at an entry with a fault (R44). -/
theorem MapStore.examineEntry_of_fault {m : MapStore} {target : BankName} {progress : Nat}
    (ho : m.op = some ⟨.commit, target, progress, none⟩) {fault : CommitFault}
    (hf : commitFaultAt (m.bank target).entries progress fault) :
    m.examineEntry = { m with op := some ⟨.commit, target, progress, some fault⟩ } := by
  have hlt : progress < (m.bank target).count := commitFaultAt_lt hf
  simp only [MapStore.examineEntry, ho, if_pos hlt, (commitFault_eq_some _ _ _).2 hf]

theorem exec_copyEntryCopied (s : State) :
    exec .copyEntryCopied s = .next { s with map := s.map.copyEntry } := by
  rfl

theorem exec_commitEntryExamined (s : State) :
    exec .commitEntryExamined s = .next { s with map := s.map.examineEntry } := by
  rfl

/-- Settles O44: the unit by its operation, and the entry at its progress index. -/
theorem tableOperationsAdvance : Obligations.TableOperationsAdvance := by
  unfold Obligations.TableOperationsAdvance
  intro s
  dsimp only
  rw [exec_copyEntryCopied, exec_commitEntryExamined]
  refine ⟨fun h => ?noCopy, fun h => ?noWalk, fun progress ho => ⟨fun h => ?copyEnd, fun entry h => ?copied⟩,
    fun progress ho => ⟨fun h => ?walkEnd, fun hlt hf => ?good, fun fault hf => ?fault⟩⟩
  case noCopy => rw [MapStore.copyEntry_of_no_copy h]
  case noWalk => rw [MapStore.examineEntry_of_no_walk h]
  case copyEnd => rw [MapStore.copyEntry_of_end ho (by rwa [BankName.other_other])]
  case copied => rw [MapStore.copyEntry_of_entry ho (by rwa [BankName.other_other])]
  case walkEnd => rw [MapStore.examineEntry_of_end ho h]
  case good => rw [MapStore.examineEntry_of_good ho hlt ((commitFault_eq_none _ _).2 hf)]
  case fault => rw [MapStore.examineEntry_of_fault ho hf]

/-! ## What a completion leaves of the Map Store -/

theorem MapStore.copyDone_of_no_copy {m : MapStore} (h : ∀ op, m.op = some op → op.kind ≠ .copy) :
    m.copyDone = (m, none) := by
  unfold MapStore.copyDone
  split
  · next ho => exact absurd rfl (h _ ho)
  · rfl

theorem MapStore.commitDone_of_no_commit {m : MapStore} (h : ∀ op, m.op = some op → op.kind ≠ .commit) :
    m.commitDone = (m, none) := by
  unfold MapStore.commitDone
  split
  · next ho => exact absurd rfl (h _ ho)
  · rfl

/-- A completed COPY leaves the source's entries in the target: those copied so far and the rest (R42; log 7). -/
theorem MapStore.copyDone_of_copy {m : MapStore} (h : m.inOrder) {op : TableOp} (ho : m.op = some op)
    (hk : op.kind = .copy) :
    m.copyDone =
      ({ m.setBank op.target ⟨(m.bank m.active).entries, .editing⟩ with op := none },
        some (.tableOpDone op.target .copy none (m.bank m.active).entries.length)) := by
  obtain ⟨kind, target, progress, found⟩ := op
  obtain rfl : kind = .copy := hk
  obtain ⟨-, -, hunit, -⟩ := h
  simp only [MapStore.unitInOrder, ho] at hunit
  obtain ⟨htarget, -, -, -, hcopied⟩ := hunit
  have hsource : target.other = m.active := by rw [htarget, BankName.other_other]
  simp only [MapStore.copyDone, ho, hsource, hcopied, List.take_append_drop]

/-- The walk of a COMMIT in order, finished: no fault at any entry (R44). -/
theorem TableOp.finishWalk_of_noFault {m : MapStore} (h : m.inOrder) {op : TableOp} (ho : m.op = some op)
    (hk : op.kind = .commit)
    (hf : ∀ i fault, i < (m.bank op.target).entries.length → ¬ commitFaultAt (m.bank op.target).entries i fault) :
    (op.finishWalk (m.bank op.target).entries).2 = none := by
  obtain ⟨-, -, hunit, -⟩ := h
  simp only [MapStore.unitInOrder, ho, hk] at hunit
  obtain ⟨-, -, -, -, hfound⟩ := hunit
  unfold TableOp.finishWalk
  split
  · next fault hstop =>
    have hat := (commitFault_eq_some _ _ _).1 (hfound fault hstop)
    exact absurd hat (hf _ fault (commitFaultAt_lt hat))
  · rw [commitWalk_of_none _ _ _ fun j _ hj => (commitFault_eq_none _ j).2 fun fault => hf j fault (by omega)]

/-- The walk of a COMMIT in order, finished: it stands at the first fault (R44). -/
theorem TableOp.finishWalk_of_fault {m : MapStore} (h : m.inOrder) {op : TableOp} (ho : m.op = some op)
    (hk : op.kind = .commit) {i : Nat} {fault : CommitFault}
    (hf : commitFaultAt (m.bank op.target).entries i fault)
    (hfirst : ∀ j other, j < i → ¬ commitFaultAt (m.bank op.target).entries j other) :
    op.finishWalk (m.bank op.target).entries = (i, some fault) := by
  obtain ⟨-, -, hunit, -⟩ := h
  simp only [MapStore.unitInOrder, ho, hk] at hunit
  obtain ⟨-, -, -, hpassed, hfound⟩ := hunit
  have hat := (commitFault_eq_some _ _ _).2 hf
  have hle : op.progress ≤ i := by
    by_contra hgt
    rw [hpassed i (by omega)] at hat
    cases hat
  unfold TableOp.finishWalk
  split
  · next stopped hstop =>
    have hstopped := hfound stopped hstop
    have heq : op.progress = i := by
      by_contra hne
      exact hfirst _ stopped (by omega) ((commitFault_eq_some _ _ _).1 hstopped)
    rw [heq] at hstopped ⊢
    rw [hstopped, Option.some_inj] at hat
    rw [hat]
  · have hlt := commitFaultAt_lt hf
    exact commitWalk_of_some _ i fault hat _ _ hle (by omega)
      fun j _ hj => (commitFault_eq_none _ j).2 fun other => hfirst j other hj

/-- A completed COMMIT without a fault leaves the bank READY (R45). -/
theorem MapStore.commitDone_of_noFault {m : MapStore} (h : m.inOrder) {op : TableOp} (ho : m.op = some op)
    (hk : op.kind = .commit)
    (hf : ∀ i fault, i < (m.bank op.target).entries.length → ¬ commitFaultAt (m.bank op.target).entries i fault) :
    m.commitDone =
      ({ m.setBank op.target ⟨(m.bank op.target).entries, .ready⟩ with op := none },
        some (.tableOpDone op.target .commit none (m.bank op.target).entries.length)) := by
  have hwalk := TableOp.finishWalk_of_noFault h ho hk hf
  obtain ⟨kind, target, progress, found⟩ := op
  obtain rfl : kind = .commit := hk
  simp only [MapStore.commitDone, ho]
  split
  · rfl
  · next hw => rw [hw] at hwalk; cases hwalk

/-- A completed COMMIT with a fault leaves the bank in EDITING, and tells the first fault (R45). -/
theorem MapStore.commitDone_of_fault {m : MapStore} (h : m.inOrder) {op : TableOp} (ho : m.op = some op)
    (hk : op.kind = .commit) {i : Nat} {fault : CommitFault}
    (hf : commitFaultAt (m.bank op.target).entries i fault)
    (hfirst : ∀ j other, j < i → ¬ commitFaultAt (m.bank op.target).entries j other) :
    m.commitDone =
      ({ m.setBank op.target ⟨(m.bank op.target).entries, .editing⟩ with op := none },
        some (.tableOpDone op.target .commit (some fault) i)) := by
  have hwalk := TableOp.finishWalk_of_fault h ho hk hf hfirst
  obtain ⟨kind, target, progress, found⟩ := op
  obtain rfl : kind = .commit := hk
  simp only [MapStore.commitDone, ho, hwalk]

/-! ## The completion of an operation, whole and in its two parts -/

theorem exec_copyComplete (part : Completion) (s : State) :
    exec (.copyComplete part) s = .next (s.complete MapStore.copyDone part) := by
  rfl

theorem exec_commitComplete (part : Completion) (s : State) :
    exec (.commitComplete part) s = .next (s.complete MapStore.commitDone part) := by
  rfl

theorem State.freeUnit_of_none {s : State} {finish : MapStore → MapStore × Option Event} {m : MapStore}
    (h : finish s.map = (m, none)) : s.freeUnit finish = s := by
  simp only [State.freeUnit, h]

/-- The unit becomes idle, and the event of the operation is owed (R40). -/
theorem State.freeUnit_of_some {s : State} {finish : MapStore → MapStore × Option Event} {m : MapStore} {e : Event}
    (h : finish s.map = (m, some e)) :
    s.freeUnit finish = { s.placeOwed with map := { m with owed := some e } } := by
  simp only [State.freeUnit, h]

/-- Where `finish` ends nothing, a completion places what is owed, and its first part nothing. -/
theorem State.complete_of_none {s : State} {finish : MapStore → MapStore × Option Event} {m : MapStore}
    (h : finish s.map = (m, none)) :
    s.complete finish .whole = s.placeOwed ∧ s.complete finish .unitIdle = s := by
  have hfree := State.freeUnit_of_none h
  exact ⟨by rw [State.complete, hfree], by rw [State.complete, hfree]⟩

/-- The whole completion of an operation raises its event at once. -/
theorem State.complete_whole_of_some {s : State} {finish : MapStore → MapStore × Option Event} {m : MapStore}
    {e : Event} (h : finish s.map = (m, some e)) :
    s.complete finish .whole = State.raise { s.placeOwed with map := { m with owed := none } } e := by
  rw [State.complete, State.freeUnit_of_some h]
  exact State.placeOwed_of_some rfl

/-- Table Op Busy is bit 0 of the node status byte (R178, R187). -/
theorem State.statusByte_getLsbD_zero (s : State) : s.statusByte.getLsbD 0 = s.map.op.isSome := by
  simp only [State.statusByte, bit, BitVec.getLsbD_append, BitVec.getLsbD_ofBool]
  simp

/-- Attention is bit 7 of the node status byte (R178, R187). -/
theorem State.statusByte_getLsbD_seven (s : State) :
    s.statusByte.getLsbD 7 = true ↔ s.agent.queue ≠ [] := by
  simp only [State.statusByte, bit, BitVec.getLsbD_append, BitVec.getLsbD_ofBool]
  simp

/-- Both ways a completion comes, where `finish` ends an operation: whole, or its first part, after which the status byte
shows Table Op Busy clear, and Attention as the records placed before it make it (R40, R178; log 17). -/
theorem State.complete_of_some {s : State} {finish : MapStore → MapStore × Option Event} {m : MapStore} {e : Event}
    (h : finish s.map = ({ m with op := none }, some e)) :
    s.complete finish .whole = State.raise { s.placeOwed with map := { m with op := none, owed := none } } e
      ∧ ∃ t, s.complete finish .unitIdle = t
        ∧ t = { s.placeOwed with map := { m with op := none, owed := some e } }
        ∧ t.statusByte.getLsbD 0 = false ∧ (t.statusByte.getLsbD 7 = true ↔ s.placeOwed.agent.queue ≠ []) := by
  refine ⟨State.complete_whole_of_some h, _, rfl, ?_⟩
  have hidle : s.complete finish .unitIdle = { s.placeOwed with map := { m with op := none, owed := some e } } :=
    State.freeUnit_of_some h
  refine ⟨hidle, ?_, ?_⟩
  · rw [hidle, State.statusByte_getLsbD_zero]
    rfl
  · rw [hidle, State.statusByte_getLsbD_seven]

/-- Settles O45: what is owed is placed, and then the operation ends as its kind and its entries decide. -/
theorem tableOperationsComplete : Obligations.TableOperationsComplete := by
  unfold Obligations.TableOperationsComplete
  intro s hs placed ends absent
  have hplaced : placed = s.placeOwed := by
    cases howed : s.map.owed with
    | none => simp only [placed, howed, State.placeOwed_of_none howed]
    | some e => simp only [placed, howed, State.placeOwed_of_some howed]
  have hends : ∀ (row : Completion → Instr) (finish : MapStore → MapStore × Option Event) (target : BankName)
      (bank : Bank) (e : Event), (∀ part, exec (row part) s = .next (s.complete finish part)) →
      finish s.map = ({ s.map.setBank target bank with op := none }, some e) → ends row target bank e := by
    intro row finish target bank e hrow hfinish
    obtain ⟨hwhole, t, hidle, ht, hbusy, hattention⟩ := State.complete_of_some hfinish
    simp only [ends, hplaced, hrow, hwhole, hidle]
    exact ⟨trivial, t, rfl, ht, hbusy, hattention⟩
  have habsent : ∀ (row : Completion → Instr) (finish : MapStore → MapStore × Option Event),
      (∀ part, exec (row part) s = .next (s.complete finish part)) → finish s.map = (s.map, none) →
      absent row := by
    intro row finish hrow hfinish
    obtain ⟨hwhole, hidle⟩ := State.complete_of_none hfinish
    simp only [absent, hplaced, hrow, hwhole, hidle]
    exact ⟨trivial, trivial⟩
  have hcopy := fun part => exec_copyComplete part s
  have hcommit := fun part => exec_commitComplete part s
  refine ⟨?owed, fun h => habsent _ _ hcopy (MapStore.copyDone_of_no_copy h),
    fun h => habsent _ _ hcommit (MapStore.commitDone_of_no_commit h),
    fun op ho hk => hends _ _ _ _ _ hcopy (MapStore.copyDone_of_copy hs ho hk),
    fun op ho hk => ⟨fun hf => hends _ _ _ _ _ hcommit (MapStore.commitDone_of_noFault hs ho hk hf),
      fun i fault hf hfirst => hends _ _ _ _ _ hcommit (MapStore.commitDone_of_fault hs ho hk hf hfirst)⟩⟩
  case owed =>
    rw [hcopy, hcommit, hplaced]
    exact ⟨rfl, rfl⟩

end Sys2Proof.Machine
end

section
/-! PROOFS. The bank requests (O46 to O49): their first refusals, the entry that is written or read, and the requests that
truncate, clear, copy and commit a bank (spec/02, sections 2.3 and 2.4). -/

namespace Sys2Proof.Machine

/-! ## The bank a request names -/

@[simp] theorem bankOf_code (name : BankName) : bankOf name.code = some name := by
  cases name <;> rfl

/-- A bank code above 1 names no bank (R34). -/
theorem bankOf_of_two_le {code : Byte} (h : 2 ≤ code.toNat) : bankOf code = none := by
  have h0 : code ≠ 0 := fun e => by simp [e] at h
  have h1 : code ≠ 1 := fun e => by simp [e] at h
  rw [bankOf, if_neg h0, if_neg h1]

theorem MapStore.nameBank_of_two_le (m : MapStore) {object : Byte} (h : 2 ≤ object.toNat) (changes : Bool) :
    m.nameBank object changes = .error .range := by
  simp only [MapStore.nameBank, bankOf_of_two_le h]

/-- The active bank is not to be changed (R34). -/
theorem MapStore.nameBank_of_active (m : MapStore) : m.nameBank m.active.code true = .error .locked := by
  simp [MapStore.nameBank]

/-- A bank under operation (R34). -/
theorem MapStore.nameBank_of_busy {m : MapStore} {name : BankName} {changes : Bool}
    (hopen : name ≠ m.active ∨ changes = false)
    (hbusy : (m.bank name).state = .copying ∨ (m.bank name).state = .checking) :
    m.nameBank name.code changes = .error .busy := by
  rcases hopen with hne | hread
  · simp [MapStore.nameBank, hne, hbusy]
  · simp [MapStore.nameBank, hread, hbusy]

/-- A read is admitted to the active bank too (R34, R37). -/
theorem MapStore.nameBank_of_read {m : MapStore} {name : BankName} (hcopy : (m.bank name).state ≠ .copying)
    (hcheck : (m.bank name).state ≠ .checking) : m.nameBank name.code false = .ok name := by
  simp [MapStore.nameBank, hcopy, hcheck]

/-- The six bank requests. -/
def RequestCode.ofBank : List RequestCode :=
  [.writeEntry, .readEntry, .truncateBank, .clearBank, .copyBank, .commitBank]

/-- Whether a bank request changes the bank it names: all but READ_ENTRY (R34). -/
def RequestCode.changesBank (c : RequestCode) : Bool := c != .readEntry

theorem RequestCode.changesBank_of_ne {c : RequestCode} (h : c ≠ .readEntry) : c.changesBank = true := by
  simpa [changesBank] using h

/-- A bank request whose bank is refused answers with the status and changes nothing (R34). -/
theorem RequestCode.run_of_refused {c : RequestCode} (hc : c ∈ ofBank) {q : Req} {s : State} {status : Status}
    (h : s.map.nameBank q.object c.changesBank = .error status) : c.run q s = (s, answer q status) := by
  by_cases hread : c = .readEntry
  · subst hread
    replace h : s.map.nameBank q.object false = .error status := h
    simp only [RequestCode.run, reqReadEntry, h]
  · rw [changesBank_of_ne hread] at h
    simp only [ofBank, List.mem_cons, List.not_mem_nil, or_false] at hc
    rcases hc with rfl | rfl | rfl | rfl | rfl | rfl
    · simp only [RequestCode.run, reqWriteEntry, h]
    · exact absurd rfl hread
    · simp only [RequestCode.run, reqTruncateBank, h]
    · simp only [RequestCode.run, reqClearBank, h]
    · simp only [RequestCode.run, reqCopyBank, h]
    · simp only [RequestCode.run, reqCommitBank, h]

/-- Settles O46: the bank code, then the active bank, then a bank under operation. -/
theorem bankRequestsAreRefusedInOrder : Obligations.BankRequestsAreRefusedInOrder := by
  unfold Obligations.BankRequestsAreRefusedInOrder
  intro i c q s hrow ha hc refused
  have hrefused : ∀ status, s.map.nameBank q.object c.changesBank = .error status → refused status := by
    intro status h
    have hexec := exec_addressed hrow ha rfl
    rw [RequestCode.run_of_refused hc h] at hexec
    exact hexec
  refine ⟨fun h => hrefused _ (s.map.nameBank_of_two_le h _), fun name hname => ⟨?active, fun hopen hbusy => ?busy⟩⟩
  case active =>
    rintro rfl hne
    apply hrefused
    rw [hname, RequestCode.changesBank_of_ne hne, MapStore.nameBank_of_active]
  case busy =>
    apply hrefused
    rw [hname]
    refine MapStore.nameBank_of_busy (hopen.imp_right ?_) hbusy
    rintro rfl
    rfl

/-! ## WRITE_ENTRY -/

section
variable {q : Req} {s : State} {name : BankName}

theorem reqWriteEntry_of_above (ho : s.bankOpen q name) (h : (s.map.bank name).count < q.index.toNat) :
    reqWriteEntry q s = (s, answer q .range) := by
  simp only [reqWriteEntry, MapStore.admit_of_bankOpen ho, if_pos h]

theorem reqWriteEntry_of_full (ho : s.bankOpen q name) (h : q.index.toNat = (s.map.bank name).count)
    (hfull : (s.map.bank name).count = 128) : reqWriteEntry q s = (s, answer q .full) := by
  have hle : ¬ (s.map.bank name).count < q.index.toNat := by omega
  have hroom : q.index.toNat = (s.map.bank name).count ∧ (s.map.bank name).count = bankRoom := ⟨h, hfull⟩
  simp only [reqWriteEntry, MapStore.admit_of_bankOpen ho, if_neg hle, if_pos hroom]

/-- A field out of range refuses the entry whole (R36). -/
theorem reqWriteEntry_of_no_entry (ho : s.bankOpen q name) (hle : q.index.toNat ≤ (s.map.bank name).count)
    (hroom : ¬ (q.index.toNat = (s.map.bank name).count ∧ (s.map.bank name).count = 128))
    (he : entryOf q.args = none) : reqWriteEntry q s = (s, answer q .range) := by
  simp only [reqWriteEntry, MapStore.admit_of_bankOpen ho, if_neg (Nat.not_lt.2 hle), bankRoom, if_neg hroom, he]

/-- At the count the entry is appended (R35). -/
theorem reqWriteEntry_of_append (ho : s.bankOpen q name) (h : q.index.toNat = (s.map.bank name).count)
    (hroom : (s.map.bank name).count ≠ 128) {entry : Entry} (he : entryOf q.args = some entry) :
    reqWriteEntry q s =
      (s.storeBank name ⟨(s.map.bank name).entries ++ [entry], .editing⟩, answer q .ok) := by
  simp [reqWriteEntry, MapStore.admit_of_bankOpen ho, bankRoom, h, hroom, he]

/-- Below the count the entry replaces the one at the index (R35). -/
theorem reqWriteEntry_of_replace (ho : s.bankOpen q name) (h : q.index.toNat < (s.map.bank name).count)
    {entry : Entry} (he : entryOf q.args = some entry) :
    reqWriteEntry q s =
      (s.storeBank name ⟨(s.map.bank name).entries.set q.index.toNat entry, .editing⟩, answer q .ok) := by
  simp [reqWriteEntry, MapStore.admit_of_bankOpen ho, Nat.lt_asymm h, Nat.ne_of_lt h, he]

end

/-- Settles O47: the index against the count, the room, and the fields. -/
theorem entriesAreWritten : Obligations.EntriesAreWritten := by
  unfold Obligations.EntriesAreWritten
  intro q s name ha ho bank refused stored
  have hexec : exec (.writeEntry q) s
      = .next ((reqWriteEntry q s).1.writeReply 0x10 q (reqWriteEntry q s).2) :=
    exec_addressed (c := .writeEntry) rfl ha rfl
  refine ⟨fun h => ?above, fun h hfull => ?full, fun hle hroom hfields => ?fields,
    fun e he => ⟨fun h hroom => ?append, fun h => ?replace⟩⟩
  case above => rw [reqWriteEntry_of_above ho h] at hexec; exact hexec
  case full => rw [reqWriteEntry_of_full ho h hfull] at hexec; exact hexec
  case fields =>
    have hnone : entryOf q.args = none :=
      Option.eq_none_iff_forall_ne_some.2 fun e he => hfields e ((entryOf_eq_some _ _).1 he)
    rw [reqWriteEntry_of_no_entry ho hle hroom hnone] at hexec
    exact hexec
  case append =>
    rw [reqWriteEntry_of_append ho h hroom ((entryOf_eq_some _ _).2 he)] at hexec
    exact hexec
  case replace =>
    rw [reqWriteEntry_of_replace ho h ((entryOf_eq_some _ _).2 he)] at hexec
    exact hexec

/-! ## READ_ENTRY -/

theorem reqReadEntry_of_none {q : Req} {s : State} {name : BankName} (h : s.map.nameBank q.object false = .ok name)
    (he : (s.map.bank name).entries[q.index.toNat]? = none) : reqReadEntry q s = (s, answer q .range) := by
  simp only [reqReadEntry, h, he]

theorem reqReadEntry_of_some {q : Req} {s : State} {name : BankName} (h : s.map.nameBank q.object false = .ok name)
    {e : Entry} (he : (s.map.bank name).entries[q.index.toNat]? = some e) :
    reqReadEntry q s = (s, ⟨.ok, e.presence, q.index, e.args, 0⟩) := by
  simp only [reqReadEntry, h, he]
  rfl

/-- The fields that an entry has not got are 0 in its Arguments (R37). -/
theorem Entry.args_absent (e : Entry) :
    (∀ channel part, e.action = .tap channel part → e.args.a5 = 0 ∧ e.args.a6 = 0)
      ∧ ∀ source, e.action = .insert source →
        e.args.a3 = 0 ∧ e.args.a4 = 0 ∧ (source.code.2 = none → e.args.a6 = 0) := by
  refine ⟨fun channel part h => ?_, fun source h => ?_⟩
  · simp [Entry.args, h]
  · simp only [Entry.args, h, true_and]
    intro hnone
    rw [hnone]
    rfl

/-- The Object of READ_ENTRY marks Channel and Part of a TAP, Source of an INSERT, and Argument where the source takes
one (R184). -/
theorem Entry.presence_getLsbD (e : Entry) :
    (e.presence.getLsbD 0 = true ↔ e.isInsert = false) ∧ (e.presence.getLsbD 1 = true ↔ e.isInsert = false)
      ∧ (e.presence.getLsbD 2 = true ↔ e.isInsert = true)
      ∧ (e.presence.getLsbD 3 = true ↔ ∃ source argument,
          e.action = .insert source ∧ source.code.2 = some argument) := by
  cases h : e.action with
  | tap channel part => simp [Entry.presence, Entry.isInsert, h]
  | insert source =>
    cases hcode : source.code.2 with
    | none => simp [Entry.presence, Entry.isInsert, h, hcode]
    | some argument => simp [Entry.presence, Entry.isInsert, h, hcode]

/-- Settles O48: past the count there is nothing to read; below it the entry is told as it stands. -/
theorem entriesAreRead : Obligations.EntriesAreRead := by
  unfold Obligations.EntriesAreRead
  intro q s name ha hname hcopy hcheck
  have hadmit : s.map.nameBank q.object false = .ok name := by
    rw [hname]
    exact MapStore.nameBank_of_read hcopy hcheck
  have hexec : exec (.readEntry q) s
      = .next ((reqReadEntry q s).1.writeReply 0x11 q (reqReadEntry q s).2) :=
    exec_addressed (c := .readEntry) rfl ha rfl
  refine ⟨fun h => ?none, fun e he => ⟨e.presence, e.args, ?some, carriesEntry_args e, ?_⟩⟩
  case none =>
    rw [reqReadEntry_of_none hadmit (List.getElem?_eq_none h)] at hexec
    exact hexec
  case some =>
    rw [reqReadEntry_of_some hadmit he] at hexec
    exact hexec
  obtain ⟨htap, hinsert⟩ := e.args_absent
  exact ⟨htap, hinsert, e.presence_getLsbD⟩

/-! ## TRUNCATE_BANK, CLEAR_BANK, COPY_BANK and COMMIT_BANK -/

section
variable {q : Req} {s : State} {name : BankName}

theorem reqTruncateBank_of_above (ho : s.bankOpen q name) (h : (s.map.bank name).count < q.index.toNat) :
    reqTruncateBank q s = (s, answer q .range) := by
  simp only [reqTruncateBank, MapStore.admit_of_bankOpen ho, if_pos h]

theorem reqTruncateBank_of_le (ho : s.bankOpen q name) (h : q.index.toNat ≤ (s.map.bank name).count) :
    reqTruncateBank q s =
      (s.storeBank name ⟨(s.map.bank name).entries.take q.index.toNat, truncatedState q.index.toNat⟩,
        answer q .ok) := by
  simp only [reqTruncateBank, MapStore.admit_of_bankOpen ho, if_neg (Nat.not_lt.2 h)]

theorem reqClearBank_of_open (ho : s.bankOpen q name) :
    reqClearBank q s = (s.storeBank name .emptied, answer q .ok) := by
  simp only [reqClearBank, MapStore.admit_of_bankOpen ho]

/-- The target is discarded, and a COPY into it starts (R41). -/
theorem reqCopyBank_of_open (ho : s.bankOpen q name) :
    reqCopyBank q s =
      ({ s with map := { s.map.setBank name ⟨[], .copying⟩ with op := some ⟨.copy, name, 0, none⟩ } },
        answer q .accepted) := by
  simp only [reqCopyBank, MapStore.admit_of_bankOpen ho]

theorem reqCommitBank_of_empty (ho : s.bankOpen q name) (h : (s.map.bank name).state = .empty) :
    reqCommitBank q s = (s, answer q .state) := by
  simp only [reqCommitBank, MapStore.admit_of_bankOpen ho, if_pos h]

/-- A COMMIT of the bank starts (R43). -/
theorem reqCommitBank_of_ne_empty (ho : s.bankOpen q name) (h : (s.map.bank name).state ≠ .empty) :
    reqCommitBank q s =
      ({ s with map := { s.map.setBank name { s.map.bank name with state := .checking } with
          op := some ⟨.commit, name, 0, none⟩ } }, answer q .accepted) := by
  simp only [reqCommitBank, MapStore.admit_of_bankOpen ho, if_neg h]

end

/-- Settles O49: each request on the bank as it stands. -/
theorem bankRequestsAreCarriedOut : Obligations.BankRequestsAreCarriedOut := by
  unfold Obligations.BankRequestsAreCarriedOut
  intro q s name ha ho bank becomes
  have hbecomes : ∀ {i : Instr} {c : RequestCode} {m : MapStore} {status : Status},
      requestRow i = some (c, q) → c.run q s = ({ s with map := m }, answer q status) →
      becomes i c.byte m status := by
    intro i c m status hrow hrun
    have hexec := exec_addressed hrow ha rfl
    rw [hrun] at hexec
    exact hexec
  refine ⟨fun h => ?_, fun h => ?_, ?_, ?_, fun h => ?_, fun h => ?_⟩
  · exact hbecomes (c := .truncateBank) rfl (reqTruncateBank_of_above ho h)
  · exact hbecomes (c := .truncateBank) rfl (reqTruncateBank_of_le ho h)
  · exact hbecomes (c := .clearBank) rfl (reqClearBank_of_open ho)
  · exact hbecomes (c := .copyBank) rfl (reqCopyBank_of_open ho)
  · exact hbecomes (c := .commitBank) rfl (reqCommitBank_of_empty ho h)
  · exact hbecomes (c := .commitBank) rfl (reqCommitBank_of_ne_empty ho h)

end Sys2Proof.Machine
end

section
/-! PROOFS. The slots of a frame (spec/03, sections 3.2 to 3.4): the walk of the active bank at one slot (O25), and what
a TAP stages and an INSERT sends (O26). -/

namespace Sys2Proof.Machine

/-! ## The walk at one slot -/

/-- A frame that is not acting performs nothing (R57). -/
theorem State.slotActions_of_not_acting {s : State} (h : s.slot.acting = false) (n : Nat) (b : Byte) :
    s.slotActions n b = (s, b) := by
  rw [State.slotActions, h]
  rfl

/-- In an acting frame the entries of the slot are performed in index order from the present place on (R59). -/
theorem State.slotActions_of_acting {s : State} (h : s.slot.acting = true) {n : Nat} {here later : List Entry}
    (hdrop : (s.map.bank s.map.active).entries.drop s.slot.place = here ++ later)
    (hhere : ∀ e ∈ here, e.slot.toNat = n) (hlater : ∀ e, later.head? = some e → e.slot.toNat ≠ n) (b : Byte) :
    s.slotActions n b =
      (let done := here.foldl (fun (acc : State × Byte) e => acc.1.perform e b acc.2) (s, b)
       ({ done.1 with slot := { done.1.slot with place := s.slot.place + here.length } }, done.2)) := by
  rw [State.slotActions, if_pos h, hdrop, State.walkSlot_eq n b later hlater here s b hhere]

/-- A slot byte: the Slot Engine acts, and the Link Framer takes in the byte received and the byte that leaves (R59,
R62). -/
theorem State.slotByte_eq (s : State) (b : Byte) (n slots : Nat) :
    s.slotByte b (25 + n) slots =
      { (s.slotActions n b).1 with link := s.link.slotArrived n slots b (s.slotActions n b).2 } := by
  have hlink := (s.slotActions_framing n b).1
  rw [State.slotByte, Nat.add_sub_cancel_left, hlink]
  rfl

/-- Settles O25: the byte goes through the slot actions, and the walk performs exactly the entries of the slot. -/
theorem slotEntriesArePerformedInOrder : Obligations.SlotEntriesArePerformedInOrder := by
  unfold Obligations.SlotEntriesArePerformedInOrder
  intro s b n slots hlocked hframe hn
  rw [exec_slot s b n slots hlocked hframe hn, State.slotByte_eq]
  refine ⟨?passed, ?walked⟩
  case passed =>
    intro hacting
    rw [State.slotActions_of_not_acting hacting]
  case walked =>
    intro hacting here later hdrop hhere hlater
    rw [State.slotActions_of_acting hacting hdrop hhere hlater]

/-! ## Taps -/

/-- A BYTE tap writes both halves (R60). -/
theorem tapValue_byte (staged : Level) (b : Byte) : tapValue .byte staged b = BitVec.ofNat 16 (b.toNat * 257) := by
  rw [tapValue, word16_eq_wordAt, wordAt, ← Nat.mul_succ]

/-- A HIGH tap keeps the low half (R60). -/
theorem tapValue_high (staged : Level) (b : Byte) :
    tapValue .high staged b = BitVec.ofNat 16 (b.toNat * 256 + staged.toNat % 256) := by
  rw [tapValue, word16_eq_wordAt, wordAt, loByte_eq, BitVec.toNat_ofNat, Nat.mod_mod]

/-- A LOW tap keeps the high half (R60). -/
theorem tapValue_low (staged : Level) (b : Byte) :
    tapValue .low staged b = BitVec.ofNat 16 (staged.toNat / 256 * 256 + b.toNat) := by
  have hhigh : staged.toNat / 256 < 2 ^ 8 := Nat.div_lt_of_lt_mul staged.isLt
  rw [tapValue, word16_eq_wordAt, wordAt, hiByte_eq, BitVec.toNat_ofNat, Nat.mod_eq_of_lt hhigh]

theorem Buffer.tap_of_filling {buffer : Buffer} (h : buffer.state = .filling) (channel : Fin 16) (part : Part)
    (b : Byte) :
    buffer.tap channel part b =
      { buffer with records :=
          buffer.records.set channel ⟨tapValue part buffer.records[channel].raw b, true⟩ } := by
  rw [Buffer.tap, if_pos h]

theorem Buffer.tap_of_not_filling {buffer : Buffer} (h : buffer.state ≠ .filling) (channel : Fin 16) (part : Part)
    (b : Byte) : buffer.tap channel part b = buffer := by
  rw [Buffer.tap, if_neg h]

/-- A TAP goes to both buffers, of which only a FILLING one takes it, and leaves the sent byte (R59, R60). -/
theorem State.perform_tap (s : State) (slot : BitVec 9) (channel : Fin 16) (part : Part) (b sent : Byte) :
    s.perform ⟨slot, .tap channel part⟩ b sent = ({ s with slot := s.slot.tap channel part b }, sent) := by
  rfl

/-- A tap goes into X where Y is not FILLING (R60). -/
theorem SlotEngine.tap_of_y_not_filling {e : SlotEngine} (h : e.y.state ≠ .filling) (channel : Fin 16) (part : Part)
    (b : Byte) : e.tap channel part b = { e with x := e.x.tap channel part b } := by
  rw [SlotEngine.tap, Buffer.tap_of_not_filling h]

/-- A tap goes into Y where X is not FILLING (R60). -/
theorem SlotEngine.tap_of_x_not_filling {e : SlotEngine} (h : e.x.state ≠ .filling) (channel : Fin 16) (part : Part)
    (b : Byte) : e.tap channel part b = { e with y := e.y.tap channel part b } := by
  rw [SlotEngine.tap, Buffer.tap_of_not_filling h]

/-! ## Inserts -/

/-- An INSERT is its Source's change, which CAPTURE_LO alone can have, and its Source's byte (R62, R66). -/
theorem State.perform_insert (s : State) (slot : BitVec 9) (source : Source) (b sent : Byte) :
    s.perform ⟨slot, .insert source⟩ b sent = (s.afterInsert source, s.insertByte source) := by
  rfl

theorem State.perform_insert_of_keeps {s : State} {source : Source} {byte : Byte} (hstate : s.afterInsert source = s)
    (hbyte : s.insertByte source = byte) (slot : BitVec 9) (b sent : Byte) :
    s.perform ⟨slot, .insert source⟩ b sent = (s, byte) := by
  rw [State.perform_insert, hstate, hbyte]

/-- A record that is not fresh is not changed by clearing it (R66). -/
theorem SenseUnit.clearFresh_of_not_fresh {u : SenseUnit} {line : Fin 8} (h : u.lines[line].fresh = false) :
    u.clearFresh line = u := by
  have hrecord : { u.lines[line] with fresh := false } = u.lines[line] := by rw [← h]
  rw [SenseUnit.clearFresh, hrecord, Fin.getElem_fin, Vector.set_getElem_self]

theorem State.afterInsert_captureLo_of_not_fresh {s : State} {line : Fin 8} (h : s.sense.lines[line].fresh = false) :
    s.afterInsert (.captureLo line) = s := by
  rw [State.afterInsert, SenseUnit.clearFresh_of_not_fresh h]

/-- Both capture sources send the no-data byte for a record that is not fresh (R66). -/
theorem State.insertByte_capture_of_not_fresh {s : State} {line : Fin 8} (h : s.sense.lines[line].fresh = false) :
    s.insertByte (.captureHi line) = 255 ∧ s.insertByte (.captureLo line) = 255 := by
  simp only [State.insertByte, h]
  exact ⟨rfl, rfl⟩

/-- For a fresh record they send the two halves of its timestamp (R66). -/
theorem State.insertByte_capture_of_fresh {s : State} {line : Fin 8} (h : s.sense.lines[line].fresh = true) :
    s.insertByte (.captureHi line) = BitVec.ofNat 8 (s.sense.lines[line].timestamp.toNat / 256)
      ∧ s.insertByte (.captureLo line) = BitVec.ofNat 8 (s.sense.lines[line].timestamp.toNat % 256) := by
  have hwide : (s.sense.lines[line].timestamp.setWidth 16).toNat = s.sense.lines[line].timestamp.toNat :=
    BitVec.toNat_setWidth_of_le (by omega)
  simp only [State.insertByte, h, if_true, hiByte_eq, loByte_eq, hwide, and_self]

/-- Settles O26: a TAP by the buffer that is FILLING and by its Part, an INSERT by its Source. -/
theorem tapsStageAndInsertsSend : Obligations.TapsStageAndInsertsSend := by
  unfold Obligations.TapsStageAndInsertsSend
  intro s slot b sent
  have hkeeps : ∀ {source byte}, s.afterInsert source = s → s.insertByte source = byte →
      s.perform ⟨slot, .insert source⟩ b sent = (s, byte) :=
    fun hstate hbyte => State.perform_insert_of_keeps hstate hbyte slot b sent
  refine ⟨fun channel part => ?taps, fun value => ?const, ?nodeStatus, ?matchCount, ?senseLevels,
    fun channel => ⟨?levelHi, ?levelLo⟩,
    fun line => ⟨fun hstale => ⟨?hiStale, ?loStale⟩, fun hfresh => ⟨?hiFresh, ?loFresh⟩⟩⟩
  case taps =>
    intro value tapped
    have hvalue : ∀ before, tapValue part before b = value before := by
      intro before
      cases part with
      | byte => exact tapValue_byte before b
      | high => exact tapValue_high before b
      | low => exact tapValue_low before b
    have htapped : ∀ buffer : Buffer, buffer.state = .filling → buffer.tap channel part b = tapped buffer := by
      intro buffer hfilling
      rw [Buffer.tap_of_filling hfilling, hvalue]
    refine ⟨fun hx hy => ?_, fun hy hx => ?_⟩
    · rw [State.perform_tap, SlotEngine.tap_of_y_not_filling hy, htapped _ hx]
    · rw [State.perform_tap, SlotEngine.tap_of_x_not_filling hx, htapped _ hy]
  case const => exact hkeeps rfl rfl
  case nodeStatus => exact hkeeps rfl rfl
  case matchCount => exact hkeeps rfl rfl
  case senseLevels => exact ⟨s.sense.levels, hkeeps rfl rfl, s.sense.levels_getLsbD⟩
  case levelHi => exact hkeeps rfl (hiByte_eq _)
  case levelLo => exact hkeeps rfl (loByte_eq _)
  case hiStale => exact hkeeps rfl (State.insertByte_capture_of_not_fresh hstale).1
  case loStale =>
    exact hkeeps (State.afterInsert_captureLo_of_not_fresh hstale) (State.insertByte_capture_of_not_fresh hstale).2
  case hiFresh => exact hkeeps rfl (State.insertByte_capture_of_fresh hfresh).1
  case loFresh =>
    rw [State.perform_insert, (State.insertByte_capture_of_fresh hfresh).2]
    rfl

end Sys2Proof.Machine
end

section
/-! PROOFS. The step operation, whole and channel by channel (spec/04, section 4.4; O38). -/

namespace Sys2Proof.Machine

/-! ## The stages of one channel -/

/-- A fallback cause of the link holds: the link state, or the stale heartbeat (R92). -/
def State.lossCause (s : State) : Bool := s.link.fallbackCause || s.link.staleCause

/-- A channel after stage 2 (R93). -/
def State.heldChannel (s : State) (i : Fin 16) : Channel :=
  if s.lossCause && !s.level.fallback then (s.consumedChannel i).applyPolicy s.agent.params.lossPolicy
  else s.consumedChannel i

/-- A channel after stage 4 (R94, R95). -/
def State.settledChannel (s : State) (i : Fin 16) : Channel :=
  (s.heldChannel i).fade.settle s.level.parks[i] s.blackoutSource s.level.testFull

/-- Stages 0 to 2 (R90 to R93). -/
theorem State.stepHeld_eq (s : State) : s.stepInputs.stepConsume.stepFallback =
    { s with
      slot := s.slot.takePending,
      level := { s.level with
        channels := Vector.ofFn s.heldChannel, frozen := s.level.freezeRequest, fallback := s.lossCause },
      agent := if s.lossCause = s.level.fallback then s.agent
        else (s.raise (.fallback s.lossCause s.link.fallbackCause s.link.staleCause)).agent } := by
  rw [State.stepConsume_eq, State.stepFallback_eq]
  have hheld : (if s.lossCause && !s.level.fallback then
      Vector.ofFn fun i => (s.consumedChannel i).applyPolicy s.agent.params.lossPolicy
      else Vector.ofFn s.consumedChannel) = Vector.ofFn s.heldChannel := by
    unfold State.heldChannel
    split <;> rfl
  rw [← hheld]
  simp only [Fin.getElem_fin, Vector.getElem_ofFn]
  rfl

/-- The step operation: what becomes of each block (section 4.4). -/
theorem State.stepOperation_eq (s : State) : s.stepOperation =
    { s with
      slot := s.slot.takePending,
      level := { s.level with
        channels := Vector.ofFn s.settledChannel, frozen := s.level.freezeRequest, fallback := s.lossCause,
        blackoutInForce := s.blackoutSource },
      generators := Vector.ofFn fun i => s.generators[i].step (s.settledChannel i),
      agent := if s.lossCause = s.level.fallback then s.agent
        else (s.raise (.fallback s.lossCause s.link.fallbackCause s.link.staleCause)).agent } := by
  unfold State.stepOperation
  rw [State.stepHeld_eq, State.stepFade, State.stepOverrides, State.stepGenerators]
  simp only [Fin.getElem_fin, Vector.getElem_ofFn]
  rfl

/-! ## What the stages leave alone -/

/-- Consumption writes the raw value, the target and its source (R91). -/
theorem State.consumedChannel_frame (s : State) (i : Fin 16) :
    ∃ raw target source, s.consumedChannel i =
      { s.level.channels[i] with raw := raw, target := target, targetSource := source } := by
  unfold State.consumedChannel
  split
  · split <;> exact ⟨_, _, _, rfl⟩
  · exact ⟨_, _, _, rfl⟩

/-- The loss policy writes the target, its source and the current level (R93). -/
theorem Channel.applyPolicy_frame (c : Channel) (policy : LossPolicy) :
    ∃ target current source, c.applyPolicy policy =
      { c with target := target, current := current, targetSource := source } := by
  cases policy <;> exact ⟨_, _, _, rfl⟩

theorem State.heldChannel_frame (s : State) (i : Fin 16) :
    ∃ raw target current source, s.heldChannel i =
      { s.level.channels[i] with raw := raw, target := target, current := current, targetSource := source } := by
  obtain ⟨raw, target, source, hconsumed⟩ := s.consumedChannel_frame i
  unfold State.heldChannel
  split
  · obtain ⟨target', current, source', hpolicy⟩ :=
      (s.consumedChannel i).applyPolicy_frame s.agent.params.lossPolicy
    exact ⟨raw, target', current, source', by rw [hpolicy, hconsumed]⟩
  · exact ⟨raw, target, _, source, hconsumed⟩

/-- The stages write the levels of a channel and leave its settings alone. -/
theorem State.settledChannel_frame (s : State) (i : Fin 16) :
    ∃ raw target current source demanded, s.settledChannel i =
      { s.level.channels[i] with
        raw := raw, target := target, current := current, targetSource := source, demanded := demanded } := by
  obtain ⟨raw, target, current, source, hheld⟩ := s.heldChannel_frame i
  rw [State.settledChannel, hheld, Channel.settle, Channel.fade]
  split <;> exact ⟨_, _, _, _, _, rfl⟩

/-! ## The step tick -/

theorem LinkFramer.fallbackCause_eq (l : LinkFramer) : l.fallbackCause = decide (l.state ≠ .locked) := by
  unfold LinkFramer.fallbackCause
  cases l.state <;> rfl

/-- The fade and the override order of a channel `d` that stages 0 to 2 have made of `c` (R94, R95). -/
theorem Channel.settle_fade_eq {c d : Channel}
    (hkept : d.enabled = c.enabled ∧ d.fadeRate = c.fadeRate ∧ d.exempt = c.exempt) (park : Park)
    (blackout testFull : Bool) :
    d.fade.settle park blackout testFull =
      (let faded : Channel :=
        if c.enabled then
          { d with current := .ofNat 16 (fadedLevel d.current.toNat d.target.toNat c.fadeRate.toNat) }
        else d
       { faded with demanded :=
          if c.enabled = false then 0
          else if park.active then park.level
          else if blackout && !c.exempt then 0
          else if testFull then 65535
          else faded.current }) := by
  obtain ⟨henabled, hrate, hexempt⟩ := hkept
  have hfade : fadeToward d.current d.target d.fadeRate
      = BitVec.ofNat 16 (fadedLevel d.current.toNat d.target.toNat c.fadeRate.toNat) := by
    rw [← hrate, ← fadeToward_toNat, BitVec.ofNat_toNat, BitVec.setWidth_eq]
  rw [← hexempt, Channel.settle, Channel.fade, hfade, henabled]
  cases hc : c.enabled with
  | false => simp [Channel.demand, henabled, hc]
  | true => simp [Channel.demand]

/-- Settles O38: the step operation read off block by block, and the stages of each channel. -/
theorem stepTickSettlesEachChannel : Obligations.StepTickSettlesEachChannel := by
  unfold Obligations.StepTickSettlesEachChannel
  intro s
  refine ⟨fun hnot => ?guard, fun hready => ⟨{ s.stepOperation with time := s.time.takeStep }, ?exec, ?_⟩⟩
  case guard => simp only [exec, execStepTick, hnot, Bool.false_eq_true, if_false]
  case exec => simp only [exec, execStepTick, hready, if_true]
  intro cause live blackout records
  have hcause : s.lossCause = cause := by rw [State.lossCause, LinkFramer.fallbackCause_eq]
  rw [State.stepOperation_eq, hcause, LinkFramer.fallbackCause_eq]
  refine ⟨fun i => ?channel, rfl, rfl, rfl, rfl, rfl, rfl, rfl, rfl, ?_, ?_, ?_⟩
  case channel =>
    intro c consumed held faded settled
    have hconsumed : s.consumedChannel i = consumed := by
      rw [State.consumedChannel, LinkFramer.fallbackCause_eq]
      rfl
    have hfallback : (s.consumedChannel i).fallbackLevel = c.fallbackLevel := by
      obtain ⟨_, _, _, e⟩ := s.consumedChannel_frame i
      rw [e]
    have hheld : s.heldChannel i = held := by
      rw [State.heldChannel, hcause]
      cases hpolicy : s.agent.params.lossPolicy <;>
        simp only [Channel.applyPolicy, hfallback, held, hpolicy, ← hconsumed]
    have hkept : held.enabled = c.enabled ∧ held.fadeRate = c.fadeRate ∧ held.exempt = c.exempt := by
      obtain ⟨_, _, _, _, e⟩ := s.heldChannel_frame i
      rw [← hheld, e]
      exact ⟨rfl, rfl, rfl⟩
    have hsettled : s.settledChannel i = settled := by
      rw [State.settledChannel, hheld, Channel.settle_fade_eq hkept]
      rfl
    simp [hsettled]
  all_goals
    dsimp only [Timebase.takeStep]
    split <;> rfl

end Sys2Proof.Machine
end

section
/-! PROOFS. The channel records and the output generators stay in order (O8): what each part of a step does to them
(spec/04 section 4.2, spec/05). -/

namespace Sys2Proof.Machine

theorem State.outputsInOrder_iff (s : State) :
    s.outputsInOrder ↔ ∀ i : Fin 16, s.generators[i].inOrderFor s.level.channels[i] :=
  Iff.rfl

/-! ## The end of a frame -/

/-- A reset leaves the channels and the generators alone, or returns both to their power-on values (R102, R124). -/
theorem State.outputsInOrder_applyReset {s : State} (h : s.outputsInOrder) (scope : Scope) :
    (s.applyReset scope).outputsInOrder := by
  obtain ⟨-, -, -, elevel, egen, -⟩ := s.applyReset_blocks scope
  cases scope with
  | tables | events => exact State.outputsInOrder_congr s _ h (by rw [elevel]; rfl) egen
  | outputs | node =>
    exact State.outputsInOrder_congr (State.powerOn 0) _ (State.outputsInOrder_powerOn 0) (by rw [elevel]; rfl) egen

theorem State.outputsInOrder_endFrame {s : State} (h : s.outputsInOrder) : s.endFrame.outputsInOrder := by
  unfold State.endFrame
  split
  · exact h
  · exact State.outputsInOrder_applyReset h _

theorem State.outputsInOrder_truncate {s : State} (h : s.outputsInOrder) : s.truncate.outputsInOrder :=
  State.outputsInOrder_endFrame h

theorem State.outputsInOrder_endChecked {s : State} (h : s.outputsInOrder) (b : Byte) :
    (s.endChecked b).outputsInOrder :=
  State.outputsInOrder_endFrame h

/-! ## Headers -/

theorem State.outputsInOrder_badHeader {s : State} (h : s.outputsInOrder) : s.badHeader.outputsInOrder := by
  obtain ⟨-, -, -, -, elevel, egen, -⟩ := s.badHeader_frame
  exact State.outputsInOrder_congr s _ h (by rw [elevel]) egen

theorem State.outputsInOrder_raise? {s : State} (h : s.outputsInOrder) (e : Option Event) :
    (s.raise? e).outputsInOrder := by
  obtain ⟨-, -, -, elevel, egen, -⟩ := s.raise?_frame e
  exact State.outputsInOrder_congr s _ h (by rw [elevel]) egen

/-- A header taken in LOCKED looks at the channels and writes none (R22, R58). -/
theorem State.outputsInOrder_afterLockedHeader {s : State} (hs : s.outputsInOrder) (h : Header) :
    (s.afterLockedHeader h).outputsInOrder := by
  unfold State.afterLockedHeader
  rw [State.decideActing_eq]
  split
  · obtain ⟨-, -, -, elevel, egen, -⟩ := s.boundary_frame h
    exact State.outputsInOrder_congr s _ hs (by rw [elevel]) egen
  · exact hs

theorem State.outputsInOrder_takeHeader {s : State} (hs : s.outputsInOrder) (h : Header) :
    (s.takeHeader h).outputsInOrder := by
  unfold State.takeHeader
  split
  · exact hs
  · exact hs
  · split
    · unfold State.enterLocked
      apply State.outputsInOrder_afterLockedHeader
      exact hs
    · exact hs
  · unfold State.lockedHeader
    apply State.outputsInOrder_afterLockedHeader
    apply State.outputsInOrder_raise?
    apply State.outputsInOrder_raise?
    exact hs

theorem State.outputsInOrder_headerEighth {s : State} (h : s.outputsInOrder) (b : Byte) :
    (s.headerEighth b).outputsInOrder := by
  unfold State.headerEighth
  dsimp only
  split
  · exact State.outputsInOrder_takeHeader (s := s.headerByte b) h _
  · exact State.outputsInOrder_badHeader (s := s.headerByte b) h

/-! ## The cell and the Agent -/

theorem State.outputsInOrder_writeReply {s : State} (h : s.outputsInOrder) (code : Byte) (q : Req) (r : Reply) :
    (s.writeReply code q r).outputsInOrder :=
  State.outputsInOrder_congr s _ h (by rw [State.level_writeReply]) (s.generators_writeReply code q r)

theorem State.outputsInOrder_agentRequest {s : State} (h : s.outputsInOrder) (c : RequestCode) (q : Req) :
    (s.agentRequest c q).outputsInOrder := by
  have hrun := RequestCode.run_outputsInOrder c q s h
  rcases s.agentRequest_cases c q with e | e | e | e <;> rw [e]
  · exact h
  · exact h
  · exact hrun
  · exact State.outputsInOrder_writeReply hrun _ q _

theorem State.outputsInOrder_agentCell {s : State} (h : s.outputsInOrder) (kind code : Byte) (q : Req) :
    (s.agentCell kind code q).outputsInOrder := by
  rcases s.agentCell_cases kind code q with e | e | e | ⟨c, e⟩ <;> rw [e]
  · exact h
  · exact h
  · exact State.outputsInOrder_writeReply h _ q _
  · exact State.outputsInOrder_agentRequest h c q

theorem State.outputsInOrder_cellLast {s : State} (h : s.outputsInOrder) (b : Byte) (slots : Nat) :
    (s.cellLast b slots).outputsInOrder := by
  unfold State.cellLast
  dsimp only
  split
  · exact h
  · split
    · apply State.outputsInOrder_agentCell
      exact h
    · exact h

/-! ## Slots -/

/-- An entry performed stages a value or reads one; it writes no channel (R60, R62). -/
theorem State.perform_outputs (s : State) (entry : Entry) (received sent : Byte) :
    (s.perform entry received sent).1.level = s.level
      ∧ (s.perform entry received sent).1.generators = s.generators := by
  unfold State.perform
  split
  · exact ⟨rfl, rfl⟩
  · unfold State.afterInsert
    split <;> exact ⟨rfl, rfl⟩

theorem State.walkSlot_outputs (number : Nat) (received : Byte) (entries : List Entry) :
    ∀ (s : State) (sent : Byte), (State.walkSlot number received entries s sent).1.level = s.level
      ∧ (State.walkSlot number received entries s sent).1.generators = s.generators := by
  induction entries with
  | nil => exact fun _ _ => ⟨rfl, rfl⟩
  | cons entry rest ih =>
    intro s sent
    unfold State.walkSlot
    split
    · obtain ⟨hlevel, hgen⟩ := s.perform_outputs entry received sent
      exact ⟨(ih _ _).1.trans hlevel, (ih _ _).2.trans hgen⟩
    · exact ⟨rfl, rfl⟩

theorem State.outputsInOrder_slotByte {s : State} (h : s.outputsInOrder) (b : Byte) (place slots : Nat) :
    (s.slotByte b place slots).outputsInOrder := by
  have hacted : (s.slotActions (place - 25) b).1.outputsInOrder := by
    unfold State.slotActions
    split
    · obtain ⟨elevel, egen⟩ := State.walkSlot_outputs (place - 25) b
        ((s.map.bank s.map.active).entries.drop s.slot.place) s b
      exact State.outputsInOrder_congr s _ h (by rw [elevel]) egen
    · exact h
  exact hacted

/-! ## Symbols -/

theorem State.outputsInOrder_flightByte {s : State} (h : s.outputsInOrder) (b : Byte) (place slots : Nat) :
    (s.flightByte b place slots).outputsInOrder := by
  unfold State.flightByte
  split_ifs
  · exact h
  · exact State.outputsInOrder_cellLast h b slots
  · exact State.outputsInOrder_slotByte h b place slots
  · exact h
  · exact State.outputsInOrder_endChecked h b

theorem State.outputsInOrder_receiveByte {s : State} (h : s.outputsInOrder) (b : Byte) :
    (s.receiveByte b).outputsInOrder := by
  unfold State.receiveByte
  split
  · exact h
  · split
    · exact h
    · split
      · exact h
      · exact State.outputsInOrder_headerEighth h b
    · exact h
    · split
      · exact State.outputsInOrder_flightByte h b _ _
      · exact h

theorem State.outputsInOrder_receiveEnd {s : State} (h : s.outputsInOrder) (sym : Sym) :
    (s.receiveEnd sym).outputsInOrder := by
  unfold State.receiveEnd
  split
  · exact h
  · split
    · exact h
    · apply State.outputsInOrder_badHeader
      exact h
    · exact h
    · split
      · apply State.outputsInOrder_truncate
        exact h
      · exact h

theorem State.outputsInOrder_endForMarker {s : State} (h : s.outputsInOrder) : s.endForMarker.outputsInOrder := by
  rcases s.endForMarker_cases with e | ⟨-, e⟩ | ⟨-, e⟩ <;> rw [e]
  · exact h
  · exact State.outputsInOrder_badHeader h
  · exact State.outputsInOrder_truncate h

/-! ## Timeout and ticks -/

/-- The expiry ends the frame in flight, in either order with LINK_STATE (R8, R168). -/
theorem State.outputsInOrder_unlockForTimeout {s : State} (h : s.outputsInOrder) :
    s.unlockForTimeout.outputsInOrder := by
  have ended : ∀ t : State, t.outputsInOrder →
      State.outputsInOrder (if t.link.inFlight then t.truncate else t) := by
    intro t ht
    split
    · exact State.outputsInOrder_truncate ht
    · exact ht
  unfold State.unlockForTimeout
  dsimp only
  split
  · exact ended _ h
  · split
    · exact ended _ h
    · exact ended { s with choices := s.choices + 1 } h

theorem State.outputsInOrder_expire {s : State} (h : s.outputsInOrder) : s.expire.outputsInOrder := by
  unfold State.expire
  split
  · exact h
  · exact State.outputsInOrder_unlockForTimeout h
  · exact h
  · exact h

/-- A step tick demands 0 of a disabled channel and leaves its generator alone (R95, R97); the generator of an enabled
one takes the demanded level as its mode has it (R109 to R117). -/
theorem Generator.inOrderFor_step {g : Generator} {c d : Channel} (h : g.inOrderFor c)
    (hsettings : ∃ raw target current source demanded, d =
      { c with raw := raw, target := target, current := current, targetSource := source, demanded := demanded })
    (hdemanded : d.enabled = false → d.demanded = 0) : (g.step d).inOrderFor d := by
  obtain ⟨⟨hperiod, hphase, hthresholds, hwidth, -⟩, hoff, hon⟩ := h
  obtain ⟨raw, target, current, source, demanded, rfl⟩ := hsettings
  have hd : Channel.inOrder { c with
      raw := raw, target := target, current := current, targetSource := source, demanded := demanded } :=
    ⟨hperiod, hphase, hthresholds, hwidth, hdemanded⟩
  refine ⟨hd, fun henabled => ?disabled, fun henabled => ?enabled⟩
  case disabled =>
    rw [Generator.step, if_neg (by rw [henabled]; exact Bool.false_ne_true)]
    exact hoff henabled
  case enabled => exact Generator.step_inOrder g _ hd (Generator.runningInOrder_congr g c _ rfl rfl (hon henabled))

/-- The override order demands 0 of a disabled channel (R95). -/
theorem Channel.demanded_settle_of_disabled {c : Channel} (h : c.enabled = false) (park : Park)
    (blackout testFull : Bool) : (c.settle park blackout testFull).demanded = 0 := by
  simp only [Channel.settle, Channel.demand, h, Bool.not_false, if_true]

theorem State.outputsInOrder_stepOperation {s : State} (h : s.outputsInOrder) : s.stepOperation.outputsInOrder := by
  rw [State.stepOperation_eq, State.outputsInOrder_iff]
  intro i
  simp only [Fin.getElem_fin, Vector.getElem_ofFn]
  exact Generator.inOrderFor_step (h i) (s.settledChannel_frame i) fun hoff =>
    Channel.demanded_settle_of_disabled hoff _ _ _

/-! ## Generators -/

/-- What keeps the generator of each enabled channel in order keeps the outputs in order (R106 to R109). -/
theorem State.outputsInOrder_onGenerator {s : State} (h : s.outputsInOrder) (channel : Fin 16)
    {f : Generator → Mode → Generator}
    (hf : ∀ (g : Generator) (c : Channel), c.inOrder → g.runningInOrder c → (f g c.mode).runningInOrder c) :
    (s.onGenerator channel f).outputsInOrder := by
  obtain ⟨hc, -, hon⟩ := h channel
  unfold State.onGenerator
  split
  · next henabled =>
    have hnew : (f s.generators[channel] s.level.channels[channel].mode).inOrderFor s.level.channels[channel] :=
      ⟨hc, fun hoff => absurd henabled (by rw [hoff]; exact Bool.false_ne_true), fun _ => hf _ _ hc (hon henabled)⟩
    exact State.outputsInOrder_set s h channel _ _ hnew _ (Vector.set_getElem_self channel.isLt).symm rfl
  · exact h

theorem Generator.dutyEnd_of_mode_inOrder (g : Generator) (c : Channel) (h : g.runningInOrder c) :
    (if c.mode = .dim then g.dutyEnd else g).runningInOrder c := by
  split
  · next hdim => exact Generator.dutyEnd_inOrder g c hdim h
  · exact h

/-! ## Every effect -/

theorem State.outputsInOrder_of_effect (s t : State) (he : s.Effect t) (h : s.outputsInOrder) : t.outputsInOrder := by
  cases he with
  | restart sns => exact State.outputsInOrder_powerOn sns
  | marker sns => exact State.outputsInOrder_endForMarker (s := s.setPins sns) h
  | byte b => exact State.outputsInOrder_receiveByte h b
  | lastByte b sns => exact State.outputsInOrder_receiveByte (s := s.setPins sns) h b
  | earlyEnd sym sns => exact State.outputsInOrder_receiveEnd (s := s.setPins sns) h sym
  | send | noExpiry | noStepTick | copyEntry | examineEntry => exact h
  | expiry sns _ => exact State.outputsInOrder_expire (s := s.setPins sns) h
  | baseTick sns =>
    rw [State.baseTick_eq]
    exact h
  | stepTick _ =>
    exact State.outputsInOrder_congr s.stepOperation _ (State.outputsInOrder_stepOperation h) rfl rfl
  | periodEnd channel => exact State.outputsInOrder_onGenerator h channel Generator.periodEnd_inOrder
  | dutyEnd channel =>
    exact State.outputsInOrder_onGenerator h channel fun g c _ => Generator.dutyEnd_of_mode_inOrder g c
  | pwmClock channel => exact State.outputsInOrder_onGenerator h channel Generator.pwmClock_inOrder
  | copyDone part | commitDone part =>
    obtain ⟨-, -, -, elevel, egen, -⟩ := s.complete_spec _ part
    exact State.outputsInOrder_congr s _ h (by rw [elevel]) egen
  | request c q =>
    unfold State.request
    split
    · exact State.outputsInOrder_agentRequest h c q
    · exact h

/-- Settles O8: each effect keeps the outputs in order, and the waiting commands do not bear on them. -/
theorem outputsStayInOrder : Obligations.OutputsStayInOrder := by
  unfold Obligations.OutputsStayInOrder
  exact step_keeps (fun _ _ h => h) State.outputsInOrder_of_effect

end Sys2Proof.Machine
end

section
/-! PROOFS. The timebase (spec/04, section 4.1: R79, R80): the step pattern as a count of 256 base ticks, and the base
tick (O35). -/

namespace Sys2Proof.Machine

/-! ## The timebase at a base tick -/

/-- A base tick within a step counts on (R80). -/
theorem Timebase.baseTick_of_within {t : Timebase} (h : t.ticks + 1 < stepLength t.step) :
    t.baseTick = { t with captureClock := t.captureClock + 1, ticks := t.ticks + 1 } := by
  have hlast : t.lastOfStep = false := decide_eq_false (Nat.not_le.2 h)
  simp only [Timebase.baseTick, hlast, Bool.false_eq_true, if_false]

/-- A base tick that ends a step begins the next one, and makes a step tick due unless it has been taken (R80, R90). -/
theorem Timebase.baseTick_of_last {t : Timebase} (h : stepLength t.step ≤ t.ticks + 1) :
    t.baseTick =
      { t with captureClock := t.captureClock + 1, step := t.step + 1, ticks := 0,
               stepDue := t.stepDue || !t.stepTaken, stepTaken := false } := by
  have hlast : t.lastOfStep = true := decide_eq_true h
  simp only [Timebase.baseTick, hlast, if_true]

/-! ## The step pattern -/

/-- The base ticks of the cycle that have gone: those of the whole steps before, of which every fourth has one more, and
those of the step in progress (R80). -/
def Timebase.elapsed (t : Timebase) : Nat := 10 * t.step.val + t.step.val / 4 + t.ticks

/-- The base ticks at which the steps of a cycle end (the table of section 4.1). -/
def stepEnds : List Nat :=
  [10, 20, 30, 41, 51, 61, 71, 82, 92, 102, 112, 123, 133, 143, 153, 164, 174, 184, 194, 205, 215, 225, 235, 246, 256]

/-- The base ticks gone when a step of the cycle ends are an entry of the table, and the next step has begun or the
cycle begins again (R80). -/
theorem stepEnds_spec : ∀ step : Fin 25,
    10 * step.val + step.val / 4 + stepLength step ∈ stepEnds
      ∧ (10 * step.val + step.val / 4 + stepLength step) % 256 = 10 * (step + 1).val + (step + 1).val / 4 := by
  decide

/-- No step ends before its last base tick (R80). -/
theorem not_mem_stepEnds : ∀ step : Fin 25, ∀ ticks : Fin 11, ticks.val + 1 < stepLength step →
    10 * step.val + step.val / 4 + ticks.val + 1 ∉ stepEnds := by
  decide

/-- The next base tick ends a step where the table has it (R80). -/
theorem Timebase.lastOfStep_iff {t : Timebase} (h : t.inOrder) : t.lastOfStep = true ↔ t.elapsed + 1 ∈ stepEnds := by
  have hticks := h.1
  have hlong : stepLength t.step ≤ 11 := by unfold stepLength; split <;> omega
  rw [Timebase.lastOfStep, decide_eq_true_eq]
  constructor
  · intro hlast
    have hend := (stepEnds_spec t.step).1
    rwa [show stepLength t.step = t.ticks + 1 by omega] at hend
  · intro hmem
    by_contra hlast
    exact not_mem_stepEnds t.step ⟨t.ticks, by omega⟩ (by dsimp only; omega) hmem

/-- A base tick counts one more of the 256 of a cycle (R80). -/
theorem Timebase.elapsed_baseTick {t : Timebase} (h : t.inOrder) : t.baseTick.elapsed = (t.elapsed + 1) % 256 := by
  have hticks := h.1
  unfold Timebase.elapsed
  by_cases hwithin : t.ticks + 1 < stepLength t.step
  · have hbelow : 10 * t.step.val + t.step.val / 4 + stepLength t.step ≤ 256 := by
      unfold stepLength
      split <;> omega
    rw [Timebase.baseTick_of_within hwithin]
    dsimp only
    omega
  · have hnext := (stepEnds_spec t.step).2
    rw [show stepLength t.step = t.ticks + 1 by omega] at hnext
    rw [Timebase.baseTick_of_last (Nat.not_lt.1 hwithin)]
    exact hnext.symm

theorem Timebase.inOrder_iterate (n : Nat) : (Timebase.baseTick^[n] Timebase.powerOn).inOrder := by
  induction n with
  | zero => exact Timebase.inOrder_powerOn
  | succ n ih =>
    rw [Function.iterate_succ_apply']
    exact Timebase.baseTick_inOrder _ ih

/-- From power-on the base ticks of a cycle are counted modulo 256 (R80). -/
theorem Timebase.elapsed_iterate (n : Nat) : (Timebase.baseTick^[n] Timebase.powerOn).elapsed = n % 256 := by
  induction n with
  | zero => rfl
  | succ n ih =>
    rw [Function.iterate_succ_apply', Timebase.elapsed_baseTick (Timebase.inOrder_iterate n), ih, Nat.mod_add_mod]

/-- The steps of the first cycle end where the table has it. -/
theorem Timebase.lastOfStep_iterate {n : Nat} (h : n < 256) :
    (Timebase.baseTick^[n] Timebase.powerOn).lastOfStep = decide (n + 1 ∈ stepEnds) := by
  rw [Bool.eq_iff_iff, decide_eq_true_eq, Timebase.lastOfStep_iff (Timebase.inOrder_iterate n),
    Timebase.elapsed_iterate, Nat.mod_eq_of_lt h]

/-- A strictly ascending list of numbers from 1 to `n` is what remains of them when the others are taken out. -/
theorem map_filter_range_of_pairwise {l : List Nat} {n : Nat} (hl : l.Pairwise (· < ·))
    (hbounds : ∀ m ∈ l, 1 ≤ m ∧ m ≤ n) : ((List.range n).filter fun k => decide (k + 1 ∈ l)).map (· + 1) = l := by
  refine List.Pairwise.eq_of_mem_iff (r := (· < ·)) ?_ hl fun m => ?_
  · exact ((List.pairwise_lt_range).filter _).map _ fun _ _ => Nat.succ_lt_succ
  · simp only [List.mem_map, List.mem_filter, List.mem_range, decide_eq_true_eq]
    constructor
    · rintro ⟨k, ⟨-, hk⟩, rfl⟩
      exact hk
    · intro hm
      obtain ⟨hlow, hhigh⟩ := hbounds m hm
      exact ⟨m - 1, ⟨by omega, by rwa [Nat.sub_add_cancel hlow]⟩, Nat.sub_add_cancel hlow⟩

/-- From power-on the steps of the first cycle end at the base ticks of the table (section 4.1). -/
theorem Timebase.stepEnds_of_powerOn :
    ((List.range 256).filter fun n => (Timebase.baseTick^[n] Timebase.powerOn).lastOfStep).map (· + 1) = stepEnds := by
  have hfilter : (List.range 256).filter (fun n => (Timebase.baseTick^[n] Timebase.powerOn).lastOfStep)
      = (List.range 256).filter fun n => decide (n + 1 ∈ stepEnds) :=
    List.filter_congr fun n hn => Timebase.lastOfStep_iterate (List.mem_range.1 hn)
  rw [hfilter]
  exact map_filter_range_of_pairwise (by decide) (by decide)

/-! ## A base tick -/

/-- What the Sense Unit's base tick operation leaves of its settings, and the levels it has seen (R127). -/
theorem SenseUnit.baseTick_settings (u : SenseUnit) (sns : Byte) (clock : BitVec 15) :
    (u.baseTick sns clock).pins = sns ∧ (u.baseTick sns clock).matchMode = u.matchMode
      ∧ (u.baseTick sns clock).armed = u.armed :=
  ⟨rfl, rfl, rfl⟩

/-- Settles O35: the pattern of the 25 steps, and one base tick block by block. -/
theorem baseTickAdvancesTheTimebase : Obligations.BaseTickAdvancesTheTimebase := by
  unfold Obligations.BaseTickAdvancesTheTimebase
  have hcycle : (Timebase.baseTick^[256] Timebase.powerOn).elapsed = 0 := Timebase.elapsed_iterate 256
  unfold Timebase.elapsed at hcycle
  refine ⟨Timebase.stepEnds_of_powerOn, Fin.ext (by rw [Fin.val_zero]; omega), by omega,
    fun s sns => ⟨s.baseTick sns, rfl, ?_⟩⟩
  rw [State.baseTick_eq]
  obtain ⟨hparams, hmask, hscope⟩ := Agent.foldl_take_frame
    (s.sense.tickEvents sns s.time.baseTick.captureClock) (s.link.frameClock.setWidth 16) s.agent
  obtain ⟨hpins, hmode, harmed⟩ := s.sense.baseTick_settings sns s.time.baseTick.captureClock
  refine ⟨?clock, ⟨fun h => ?within, fun h => ?last⟩, rfl, rfl, rfl, rfl, rfl, hparams, hmask, hscope, rfl, rfl, hpins,
    hmode, harmed⟩
  case clock =>
    rw [Timebase.captureClock_baseTick, BitVec.toNat_add]
    rfl
  case within =>
    rw [← stepLength_eq] at h
    rw [Timebase.baseTick_of_within h]
    exact ⟨rfl, rfl, rfl, rfl⟩
  case last =>
    rw [← stepLength_eq] at h
    rw [Timebase.baseTick_of_last h]
    exact ⟨rfl, step_succ_val _, by simp, rfl⟩

end Sys2Proof.Machine
end

section
/-! PROOFS. Curves and fades as arithmetic (spec/04, sections 4.3 and 4.4: R88, R94). -/

namespace Sys2Proof.Machine

/-! ## Curves -/

theorem evalCurve_zero (curves : Vector (Vector Level 17) 3) (r : Level) : evalCurve curves 0 r = r := by
  rfl

theorem evalCurve_succ (curves : Vector (Vector Level 17) 3) (n : Fin 3) (r : Level) :
    evalCurve curves n.succ r = evalPoints curves[n] r := by
  simp [evalCurve]

/-- The points of a segment of a curve at its default points: 4096 apart, but for 4095 in the last segment (R87). -/
theorem defaultPoints_segment {k : Nat} (h : k < 16) :
    (defaultPoints[k]).toNat = k * 4096
      ∧ (defaultPoints[k + 1]).toNat = if k = 15 then 65535 else k * 4096 + 4096 := by
  have hfirst := defaultPoints_toNat ⟨k, by omega⟩
  have hnext := defaultPoints_toNat ⟨k + 1, by omega⟩
  rw [if_neg (by simp; omega)] at hfirst
  refine ⟨hfirst, ?_⟩
  by_cases hk : k = 15
  · subst hk
    simpa using hnext
  · rw [if_neg (by simp; omega)] at hnext
    rw [if_neg hk, ← Nat.succ_mul]
    exact hnext

/-- A whole segment of width 4096 gives the fraction itself, and one of width 4095 a unit less past its first point. -/
theorem tdiv_segment (fraction : Nat) (h : fraction < 4096) :
    ((4096 : Int) * fraction).tdiv 4096 = fraction
      ∧ ((4095 : Int) * fraction).tdiv 4096 = if fraction = 0 then 0 else (fraction : Int) - 1 := by
  refine ⟨Int.mul_tdiv_cancel_left _ (by decide), ?_⟩
  rw [Int.tdiv_eq_ediv_of_nonneg (by omega)]
  split_ifs <;> omega

/-- The default points give the raw value up to point 15, and a unit less above it (R87, R88). -/
theorem evalPoints_default (r : Level) :
    (evalPoints defaultPoints r).toNat = if r.toNat ≤ 61440 then r.toNat else r.toNat - 1 := by
  have hr := r.isLt
  obtain ⟨hvalue, -⟩ := evalPoints_spec defaultPoints r (by omega) (by omega)
  obtain ⟨hfirst, hnext⟩ := defaultPoints_segment (k := r.toNat / 4096) (by omega)
  obtain ⟨hwide, hlast⟩ := tdiv_segment (r.toNat % 4096) (by omega)
  rw [hfirst, hnext] at hvalue
  by_cases hseg : r.toNat / 4096 = 15
  · have hwidth : ((65535 : Nat) : Int) - ((15 * 4096 : Nat) : Int) = 4095 := by norm_num
    rw [hseg, if_pos rfl, hwidth, hlast] at hvalue
    split_ifs at hvalue ⊢ <;> omega
  · have hwidth : ((r.toNat / 4096 * 4096 + 4096 : Nat) : Int) - ((r.toNat / 4096 * 4096 : Nat) : Int) = 4096 := by
      push_cast
      ring
    rw [if_neg hseg, hwidth, hwide] at hvalue
    rw [if_pos (by omega)]
    omega

/-- Settles O39: curve 0, the segment of a curve, and the default points. -/
theorem curveEvaluation : Obligations.CurveEvaluation := by
  unfold Obligations.CurveEvaluation
  refine ⟨evalCurve_zero, fun curves n r h => ?segment, fun n r => ?default⟩
  case segment =>
    rw [evalCurve_succ]
    exact evalPoints_spec curves[n] r (by omega) h
  case default =>
    rw [evalCurve_succ, show defaultCurves[n] = defaultPoints from LevelEngine.curve_powerOn n]
    exact evalPoints_default r

/-! ## Fades -/

/-- How far two levels stand apart. -/
def levelDistance (current target : Nat) : Nat := (target - current) + (current - target)

theorem levelDistance_eq_zero {current target : Nat} : levelDistance current target = 0 ↔ current = target := by
  unfold levelDistance
  omega

/-- A step of a fade takes the rate off the distance, and never passes the target (R94). -/
theorem levelDistance_fadedLevel (current target : Nat) {rate : Nat} (h : rate ≠ 0) :
    levelDistance (fadedLevel current target rate) target = levelDistance current target - rate := by
  unfold fadedLevel levelDistance
  split_ifs <;> omega

/-- After `n` steps the distance has shrunk by `n` times the rate (R94). -/
theorem levelDistance_fadeToward_iterate (current target : Level) {rate : Level} (h : rate ≠ 0) (n : Nat) :
    levelDistance ((fun level => fadeToward level target rate)^[n] current).toNat target.toNat
      = levelDistance current.toNat target.toNat - n * rate.toNat := by
  have hrate : rate.toNat ≠ 0 := fun h0 => h (BitVec.eq_of_toNat_eq h0)
  induction n with
  | zero => simp
  | succ n ih =>
    rw [Function.iterate_succ_apply', fadeToward_toNat, levelDistance_fadedLevel _ _ hrate, ih, Nat.succ_mul,
      Nat.sub_sub]

/-- The level is the target exactly from the step count on: the distance over the rate, rounded up (R94). -/
theorem fadeToward_iterate_eq_iff (current target : Level) {rate : Level} (h : rate ≠ 0) (n : Nat) :
    (fun level => fadeToward level target rate)^[n] current = target
      ↔ (levelDistance current.toNat target.toNat + rate.toNat - 1) / rate.toNat ≤ n := by
  have hpos : 0 < rate.toNat := Nat.pos_of_ne_zero fun h0 => h (BitVec.eq_of_toNat_eq h0)
  rw [← BitVec.toNat_inj, ← levelDistance_eq_zero, levelDistance_fadeToward_iterate current target h,
    Nat.sub_eq_zero_iff_le, Nat.mul_comm, ← Nat.ceilDiv_eq_add_pred_div, ceilDiv_le_iff_le_mul hpos]

theorem fadeToward_rate_zero (current target : Level) : fadeToward current target 0 = target := by
  simp [fadeToward]

/-- Settles O40: rate 0 at once, any other from its step count on and not before. -/
theorem fadeReachesItsTarget : Obligations.FadeReachesItsTarget := by
  unfold Obligations.FadeReachesItsTarget
  intro current target rate distance
  refine ⟨fadeToward_toNat current target rate, ?zero, fun h n => ?reached, fun h n hn => ?before⟩
  case zero =>
    rintro rfl
    exact fadeToward_rate_zero current target
  case reached => exact (fadeToward_iterate_eq_iff current target h n).2
  case before => exact fun heq => Nat.not_le.2 hn ((fadeToward_iterate_eq_iff current target h n).1 heq)

end Sys2Proof.Machine
end

section
/-! PROOFS. A request that answers with a status alone, and WRITE_CHANNEL of the groups OUTPUT, LEVEL and TRIGGER
(spec/07, section 7.4; spec/04, section 4.2; O53). -/

namespace Sys2Proof.Machine

/-- An addressed row whose request answers with a status alone (R147). -/
theorem exec_of_run_answer {i : Instr} {c : RequestCode} {p q : Req} {s t : State} {status : Status}
    (ha : s.addressed q) (hrow : requestRow i = some (c, p)) (hp : p.destination = q.destination)
    (hrun : c.run p s = (t, answer p status)) : exec i s = .next (t.writeReply c.byte p (answer p status)) := by
  rw [exec_addressed hrow ha hp, hrun]

/-! ## WRITE_CHANNEL -/

section
variable {q : Req} {s : State} {channel : Fin 16}

/-- A channel above 15 is refused, whatever the group (R156). -/
theorem reqWriteChannel_of_le (h : 16 ≤ q.index.toNat) : reqWriteChannel q s = (s, answer q .range) := by
  simp only [reqWriteChannel, channelOf_of_le h]

theorem reqWriteChannel_output (h : q.index.toNat = channel.val) :
    reqWriteChannel { q with object := 0 } s = reqWriteOutput { q with object := 0 } channel s := by
  simp only [reqWriteChannel, channelOf_of_eq h]
  rfl

theorem reqWriteChannel_level (h : q.index.toNat = channel.val) :
    reqWriteChannel { q with object := 1 } s
      = reqWriteGroup { q with object := 1 } channel (s.level.channels[channel].writeLevel q.args) s := by
  simp only [reqWriteChannel, channelOf_of_eq h]
  rfl

theorem reqWriteChannel_trigger (h : q.index.toNat = channel.val) :
    reqWriteChannel { q with object := 2 } s
      = reqWriteGroup { q with object := 2 } channel (s.level.channels[channel].writeTrigger q.args) s := by
  simp only [reqWriteChannel, channelOf_of_eq h]
  rfl

/-- The machine with one channel record and its generator replaced. -/
def State.setOutput (s : State) (channel : Fin 16) (c : Channel) (g : Generator) : State :=
  { s with level := { s.level with channels := s.level.channels.set channel c },
           generators := s.generators.set channel g }

theorem State.setOutput_eq (s : State) (channel : Fin 16) (c : Channel) (g : Generator) :
    (s.setChannel channel c).setGenerator channel g = s.setOutput channel c g := by
  rfl

/-- A channel replaced leaves its generator as it is. -/
theorem State.setOutput_of_generator (s : State) (channel : Fin 16) (c : Channel) :
    s.setOutput channel c s.generators[channel] = s.setChannel channel c := by
  rw [State.setOutput, set_getElem_self]
  rfl

theorem reqWriteOutput_of_error {status : Status}
    (h : writeOutput (outputGroupOf q.args) s.level.channels[channel] s.generators[channel] = .error status) :
    reqWriteOutput q channel s = (s, answer q status) := by
  simp only [reqWriteOutput, h]

theorem reqWriteOutput_of_ok {c : Channel} {g : Generator}
    (h : writeOutput (outputGroupOf q.args) s.level.channels[channel] s.generators[channel] = .ok (c, g)) :
    reqWriteOutput q channel s = (s.setOutput channel c g, answer q .ok) := by
  simp only [reqWriteOutput, h, State.setOutput_eq]

theorem reqWriteGroup_none : reqWriteGroup q channel none s = (s, answer q .range) := by
  rfl

theorem reqWriteGroup_some (c : Channel) :
    reqWriteGroup q channel (some c) s = (s.setOutput channel c s.generators[channel], answer q .ok) := by
  rw [State.setOutput_of_generator]
  rfl

end

/-- Settles O53: the channel, then the group's own tests, then what is written. -/
theorem channelGroupsAreWritten : Obligations.ChannelGroupsAreWritten := by
  unfold Obligations.ChannelGroupsAreWritten
  intro q s ha refused a
  have hrefused : ∀ {i : Instr} {object : Byte} {status : Status},
      requestRow i = some (.writeChannel, { q with object := object }) →
      reqWriteChannel { q with object := object } s = (s, answer { q with object := object } status) →
      refused i object status := fun hrow hrun =>
      exec_of_run_answer (c := .writeChannel) ha hrow rfl hrun
  refine ⟨fun h => ?above, fun channel h => ?_⟩
  case above =>
    exact ⟨hrefused rfl (reqWriteChannel_of_le h), hrefused rfl (reqWriteChannel_of_le h),
      hrefused rfl (reqWriteChannel_of_le h)⟩
  intro c g wrote
  have hwrote : ∀ {i : Instr} {object : Byte} {d : Channel} {g' : Generator},
      requestRow i = some (.writeChannel, { q with object := object }) →
      reqWriteChannel { q with object := object } s
        = (s.setOutput channel d g', answer { q with object := object } .ok) →
      wrote i object d g' := fun hrow hrun =>
    exec_of_run_answer (c := .writeChannel) ha hrow rfl hrun
  refine ⟨?output, fun hbad => ?levelRange, fun curve hcurve hexempt => ?levelOk, fun hbad => ?triggerRange,
    fun hvalid => ?triggerOk⟩
  case output =>
    have herror : ∀ {status : Status}, writeOutput (outputGroupOf a) c g = .error status →
        refused (.writeChannelOutput q) 0 status := fun hw =>
      hrefused rfl ((reqWriteChannel_output h).trans (reqWriteOutput_of_error hw))
    have hok : ∀ {d : Channel} {g' : Generator}, writeOutput (outputGroupOf a) c g = .ok (d, g') →
        wrote (.writeChannelOutput q) 0 d g' := fun hw =>
      hwrote rfl ((reqWriteChannel_output h).trans (reqWriteOutput_of_ok hw))
    intro period phase inRange enable stopped started
    refine ⟨fun hoff => ⟨fun hbad => ?offRange, fun mode divider hmode hdivider hrange => ?offOk⟩, fun hon => ?on⟩
    case offRange => exact herror (writeOutput_disabled_range a c g hoff hbad)
    case offOk =>
      have hw := writeOutput_disabled_ok a c g hoff mode divider hmode hdivider hrange
      exact ⟨fun hstay => hok (hw.trans (by rw [if_neg hstay])), fun henable => hok (hw.trans (by rw [if_pos henable]))⟩
    case on =>
      have hlock := outputGroup_meetsLock_iff a c
      refine ⟨fun hmeets => ?locked, fun hfree hbad => ?onRange, fun hfree hrange => ?onOk, fun hfree hrange => ?disable⟩
      case locked => exact herror (writeOutput_enabled_locked a c g hon (hlock.2 hmeets))
      case onRange => exact herror (writeOutput_enabled_range a c g hon (mt hlock.1 hfree) hbad)
      all_goals have hw := writeOutput_enabled_ok a c g hon (mt hlock.1 hfree) hrange
      case onOk => exact fun henable => hok (hw.trans (by rw [if_pos henable]))
      case disable => exact fun hstop => hok (hw.trans (by rw [if_neg hstop]))
  case levelRange =>
    apply hrefused rfl
    rw [reqWriteChannel_level h, Channel.writeLevel_range _ _ hbad, reqWriteGroup_none]
  case levelOk =>
    apply hwrote rfl
    rw [reqWriteChannel_level h, Channel.writeLevel_ok _ _ curve hcurve hexempt, reqWriteGroup_some]
  case triggerRange =>
    apply hrefused rfl
    rw [reqWriteChannel_trigger h, Channel.writeTrigger_range _ _ hbad, reqWriteGroup_none]
  case triggerOk =>
    apply hwrote rfl
    rw [reqWriteChannel_trigger h, Channel.writeTrigger_ok _ _ hvalid, reqWriteGroup_some]

end Sys2Proof.Machine
end

section
/-! PROOFS. WRITE_CURVE and READ_CURVE (spec/04, section 4.3; O55). -/

namespace Sys2Proof.Machine

section
variable {q : Req} {s : State} {n : Fin 3}

/-! ## WRITE_CURVE -/

theorem reqWriteCurve_of_four_le (h : 4 ≤ q.object.toNat) : reqWriteCurve q s = (s, answer q .range) := by
  simp only [reqWriteCurve, curveOf_of_four_le h]

theorem reqWriteCurve_of_zero (h : q.object = 0) : reqWriteCurve q s = (s, answer q .locked) := by
  have hcurve : curveOf q.object = some 0 := curveOf_of_eq 0 (by rw [h]; rfl)
  simp only [reqWriteCurve, hcurve]
  rfl

theorem curveOf_of_succ (h : q.object.toNat = n.val + 1) : curveOf q.object = some n.succ :=
  curveOf_of_eq n.succ (by rw [h, Fin.val_succ])

theorem reqWriteCurve_of_invalid (h : q.object.toNat = n.val + 1)
    (hbad : ¬ (1 ≤ q.count.toNat ∧ q.count.toNat ≤ 3 ∧ q.index.toNat + q.count.toNat - 1 ≤ 16)) :
    reqWriteCurve q s = (s, answer q .range) := by
  simp only [reqWriteCurve, curveOf_of_succ h]
  rw [dif_neg (by simp), if_pos (by omega)]

theorem reqWriteCurve_of_valid (h : q.object.toNat = n.val + 1)
    (hvalid : 1 ≤ q.count.toNat ∧ q.count.toNat ≤ 3 ∧ q.index.toNat + q.count.toNat - 1 ≤ 16) :
    reqWriteCurve q s =
      ({ s with level := { s.level with
          curves := s.level.curves.set n
            (writePoints s.level.curves[n] q.index.toNat (curveValues q.args q.count.toNat)) } },
        answer q .ok) := by
  simp only [reqWriteCurve, curveOf_of_succ h]
  rw [dif_neg (by simp), if_neg (by omega)]
  simp

/-! ## READ_CURVE -/

theorem LevelEngine.curvePoints_zero (l : LevelEngine) : l.curvePoints 0 = defaultPoints := by
  rfl

theorem LevelEngine.curvePoints_succ (l : LevelEngine) (n : Fin 3) : l.curvePoints n.succ = l.curves[n] := by
  simp [LevelEngine.curvePoints]

theorem readPoints_length (points : Vector Level 17) (first : Nat) :
    (readPoints points first).length = min 3 (17 - first) := by
  simp [readPoints]

/-- The points returned are those of the curve, as far as it goes (R89). -/
theorem readPoints_getD (points : Vector Level 17) (first : Nat) {j : Nat} (hj : j < 3) :
    (readPoints points first).getD j 0 = if h : first + j < 17 then points[first + j] else 0 := by
  split
  · next h => simp [readPoints, hj, h, List.getD]
  · next h =>
    have hpast : ((points.toList.drop first).take 3)[j]? = none :=
      List.getElem?_eq_none (by simp; omega)
    rw [readPoints, List.getD, hpast]
    rfl

theorem reqReadCurve_of_range (h : 4 ≤ q.object.toNat ∨ 16 < q.index.toNat) :
    reqReadCurve q s = (s, answer q .range) := by
  unfold reqReadCurve
  split
  · rfl
  · next curve hcurve =>
    rcases h with h | h
    · rw [curveOf_of_four_le h] at hcurve
      cases hcurve
    · rw [if_pos h]

theorem reqReadCurve_of_le {curve : Fin 4} (h : q.object.toNat = curve.val) (hfirst : q.index.toNat ≤ 16) :
    reqReadCurve q s =
      (s, ⟨.ok, q.object, q.index, pointArgs (readPoints (s.level.curvePoints curve) q.index.toNat),
        BitVec.ofNat 8 (readPoints (s.level.curvePoints curve) q.index.toNat).length⟩) := by
  simp only [reqReadCurve, curveOf_of_eq curve h]
  rw [if_neg (by omega)]
  rfl

/-- The three words of the Arguments of READ_CURVE (R184). -/
theorem pointArgs_words (values : List Level) :
    wordAt (pointArgs values).a1 (pointArgs values).a2 = values.getD 0 0
      ∧ wordAt (pointArgs values).a3 (pointArgs values).a4 = values.getD 1 0
      ∧ wordAt (pointArgs values).a5 (pointArgs values).a6 = values.getD 2 0 :=
  ⟨wordAt_hiByte_loByte _, wordAt_hiByte_loByte _, wordAt_hiByte_loByte _⟩

end

/-- Settles O55: the tests in their order, the points written, and the points read. -/
theorem curvesAreWrittenAndRead : Obligations.CurvesAreWrittenAndRead := by
  unfold Obligations.CurvesAreWrittenAndRead
  intro q s ha first value refused valid
  have hrefused : ∀ {status : Status}, reqWriteCurve q s = (s, answer q status) → refused status := fun hrun =>
    exec_of_run_answer (c := .writeCurve) ha rfl rfl hrun
  refine ⟨fun h => hrefused (reqWriteCurve_of_four_le h), fun h => hrefused (reqWriteCurve_of_zero h),
    fun n h => ⟨fun hbad => hrefused (reqWriteCurve_of_invalid h hbad), fun hvalid => ?written⟩,
    fun h => ?readRange, fun hobject hfirst => ?readOk⟩
  case written =>
    exact ⟨_, exec_of_run_answer (c := .writeCurve) ha rfl rfl (reqWriteCurve_of_valid h hvalid),
      writePoints_get _ q.args first q.count.toNat hvalid.2.1⟩
  case readRange => exact exec_of_run_answer (c := .readCurve) ha rfl rfl (reqReadCurve_of_range h)
  case readOk =>
    let curve : Fin 4 := ⟨q.object.toNat, hobject⟩
    let points := s.level.curvePoints curve
    have hexec := exec_addressed (i := .readCurve q) (c := .readCurve) rfl ha rfl
    have hlength := readPoints_length points first
    obtain ⟨h0, h1, h2⟩ := pointArgs_words (readPoints points first)
    refine ⟨pointArgs (readPoints points first), BitVec.ofNat 8 (readPoints points first).length, ?_, ?_, ?_⟩
    · rw [RequestCode.run, reqReadCurve_of_le (curve := curve) rfl hfirst] at hexec
      exact hexec
    · rw [hlength, BitVec.toNat_ofNat]
      omega
    intro returned
    have hreturned : ∀ j, j < 3 → returned j ((readPoints points first).getD j 0) := by
      intro j hj
      rw [readPoints_getD points first hj]
      refine ⟨fun h => dif_neg (by omega), fun k hk => ?_⟩
      simp only [← hk]
      rw [dif_pos k.isLt]
      refine ⟨fun hzero => ?_, fun n hn => ?_⟩
      · have hcurve : curve = 0 := Fin.ext (by simp [curve, hzero])
        simp only [points, hcurve, LevelEngine.curvePoints_zero]
        exact defaultPoints_toNat k
      · have hcurve : curve = n.succ := Fin.ext hn
        simp only [points, hcurve, LevelEngine.curvePoints_succ]
        rfl
    rw [h0, h1, h2]
    exact ⟨hreturned 0 (by decide), hreturned 1 (by decide), hreturned 2 (by decide)⟩

end Sys2Proof.Machine
end

section
/-! PROOFS. SET_OVERRIDE, FREEZE, THAW and CLEAR_INTERLOCK (spec/04, sections 4.5 and 4.6; spec/06, section 6.4; O57). -/

namespace Sys2Proof.Machine

section
variable {q : Req} {s : State}

/-! ## SET_OVERRIDE -/

/-- A value above 1 is no setting of any override (R159). -/
theorem reqSetOverride_of_two_le (h : 2 ≤ q.args.a1.toNat) : reqSetOverride q s = (s, answer q .range) := by
  rw [reqSetOverride, flagOf_of_two_le h]
  split
  · next hflag => cases hflag
  · next hflag => cases hflag
  · next hflag => cases hflag
  · rfl

theorem reqSetOverride_blackout (h : q.args.a1.toNat ≤ 1) :
    reqSetOverride { q with object := 0 } s =
      ({ s with level := { s.level with blackout := decide (q.args.a1.toNat = 1) } },
        answer { q with object := 0 } .ok) := by
  simp only [reqSetOverride, flagOf_of_le h]
  rfl

theorem reqSetOverride_testFull (h : q.args.a1.toNat ≤ 1) :
    reqSetOverride { q with object := 1 } s =
      ({ s with level := { s.level with testFull := decide (q.args.a1.toNat = 1) } },
        answer { q with object := 1 } .ok) := by
  simp only [reqSetOverride, flagOf_of_le h]
  rfl

/-- PARK of a channel above 15 is refused, whatever its value (R99). -/
theorem reqSetOverride_park_of_le (h : 16 ≤ q.index.toNat) :
    reqSetOverride { q with object := 2 } s = (s, answer { q with object := 2 } .range) := by
  by_cases hv : 2 ≤ q.args.a1.toNat
  · exact reqSetOverride_of_two_le (q := { q with object := 2 }) hv
  · simp only [reqSetOverride, flagOf_of_le (Nat.not_lt.1 hv), channelOf_of_le h]
    rfl

/-- PARK on takes the level carried, PARK off keeps the one stored (R99). -/
theorem reqSetOverride_park {channel : Fin 16} (h : q.index.toNat = channel.val) (hv : q.args.a1.toNat ≤ 1) :
    reqSetOverride { q with object := 2 } s =
      ({ s with level := { s.level with
          parks := s.level.parks.set channel
            ⟨decide (q.args.a1.toNat = 1),
              if decide (q.args.a1.toNat = 1) then wordAt q.args.a2 q.args.a3 else s.level.parks[channel].level⟩ } },
        answer { q with object := 2 } .ok) := by
  simp only [reqSetOverride, flagOf_of_le hv, channelOf_of_eq h, word16_eq_wordAt]
  rfl

/-! ## CLEAR_INTERLOCK -/

theorem reqClearInterlock_of_inactive (h : s.sense.active = false) : reqClearInterlock q s = (s, answer q .ok) := by
  simp only [reqClearInterlock, h, Bool.false_eq_true, if_false]

theorem reqClearInterlock_of_match (h : s.sense.active = true) (hmatch : s.sense.matchState = true) :
    reqClearInterlock q s = (s, answer q .state) := by
  simp only [reqClearInterlock, h, hmatch, if_true]

theorem reqClearInterlock_of_no_match (h : s.sense.active = true) (hmatch : s.sense.matchState = false) :
    reqClearInterlock q s =
      (State.raise { s with sense := { s.sense with active := false } } (.interlock false), answer q .ok) := by
  simp only [reqClearInterlock, h, hmatch, if_true, Bool.false_eq_true, if_false]

end

/-- Settles O57: each request on the setting it names, and the interlock by its state and the match. -/
theorem overridesFreezeAndInterlock : Obligations.OverridesFreezeAndInterlock := by
  unfold Obligations.OverridesFreezeAndInterlock
  intro q s ha v leaves withLevel blackout testFull park
  have hanswer : ∀ {i : Instr} {c : RequestCode} {p : Req} {t : State} {status : Status},
      requestRow i = some (c, p) → p.destination = q.destination → c.run p s = (t, answer p status) →
      leaves i c.byte p t status := fun hrow hp hrun => exec_of_run_answer ha hrow hp hrun
  have hset : ∀ {i : Instr} {object : Byte} {t : State} {status : Status},
      requestRow i = some (.setOverride, { q with object := object }) →
      reqSetOverride { q with object := object } s = (t, answer { q with object := object } status) →
      leaves i 0x30 { q with object := object } t status := fun hrow hrun =>
    hanswer (c := .setOverride) hrow rfl hrun
  refine ⟨fun h => ?range, fun h => hset rfl (reqSetOverride_park_of_le h), fun h => ?onOff,
    fun channel h => ⟨fun hv => ?parked, fun hv => ?unparked⟩, ?freeze, ?thaw, fun hactive hmatch => ?released,
    fun hactive hmatch => ?kept, fun hinactive => ?idle⟩
  case range =>
    exact ⟨hset rfl (reqSetOverride_of_two_le h), hset rfl (reqSetOverride_of_two_le h),
      hset rfl (reqSetOverride_of_two_le h)⟩
  case onOff => exact ⟨hset rfl (reqSetOverride_blackout h), hset rfl (reqSetOverride_testFull h)⟩
  case parked =>
    apply hset rfl
    rw [reqSetOverride_park h hv.le, decide_eq_true hv, if_pos rfl]
  case unparked =>
    have hne : v ≠ 1 := by omega
    apply hset rfl
    rw [reqSetOverride_park h (by omega), decide_eq_false hne, if_neg Bool.false_ne_true]
  case freeze => exact hanswer (c := .freeze) rfl rfl rfl
  case thaw => exact hanswer (c := .thaw) rfl rfl rfl
  case released => exact hanswer (c := .clearInterlock) rfl rfl (reqClearInterlock_of_no_match hactive hmatch)
  case kept => exact hanswer (c := .clearInterlock) rfl rfl (reqClearInterlock_of_match hactive hmatch)
  case idle => exact hanswer (c := .clearInterlock) rfl rfl (reqClearInterlock_of_inactive hinactive)

end Sys2Proof.Machine
end

section
/-! PROOFS. What a generator does with the demanded level at a step tick, mode by mode (spec/05, sections 5.3 to 5.6;
O41). -/

namespace Sys2Proof.Machine

section

variable {g : Generator} {c : Channel}

/-! ## The mode decides -/

theorem Generator.step_of_disabled (h : c.enabled = false) : g.step c = g := by
  rw [Generator.step, if_neg (by rw [h]; exact Bool.false_ne_true)]

theorem Generator.step_dim (h : c.enabled = true) (hm : c.mode = .dim) : g.step c = g.dimStep c.demanded := by
  rw [Generator.step, if_pos h, hm]

theorem Generator.step_strobe (h : c.enabled = true) (hm : c.mode = .strobe) :
    g.step c = g.strobeStep c.demanded c.pulseWidth := by
  rw [Generator.step, if_pos h, hm]

theorem Generator.step_switch (h : c.enabled = true) (hm : c.mode = .switch) :
    g.step c = g.switchStep c.demanded c.onThreshold c.offThreshold := by
  rw [Generator.step, if_pos h, hm]

theorem Generator.step_pulse (h : c.enabled = true) (hm : c.mode = .pulse) : g.step c = g.pulseStep c := by
  rw [Generator.step, if_pos h, hm]

end

section

variable {g : Generator} {v on off : Level} {width : Byte}

/-! ## SWITCH -/

theorem Generator.switchStep_of_on_le (h : on ≤ v) : g.switchStep v on off = { g with lineActive := true } := by
  rw [Generator.switchStep, if_pos h]

theorem Generator.switchStep_of_le_off (hon : v < on) (hoff : v ≤ off) :
    g.switchStep v on off = { g with lineActive := false } := by
  rw [Generator.switchStep, if_neg (BitVec.not_le.2 hon), if_pos hoff]

theorem Generator.switchStep_of_between (hon : v < on) (hoff : off < v) : g.switchStep v on off = g := by
  rw [Generator.switchStep, if_neg (BitVec.not_le.2 hon), if_neg (BitVec.not_le.2 hoff)]

/-! ## STROBE -/

theorem Generator.strobeStep_zero_of_cycle (h : g.strobeCycle = true) :
    g.strobeStep 0 width =
      { g with strobeCycle := false, strobeCount := 0, flashRemaining := 0, lineActive := false } := by
  rw [Generator.strobeStep, if_pos h, if_pos rfl]

theorem Generator.strobeStep_zero_of_idle (h : g.strobeCycle = false) : g.strobeStep 0 width = g := by
  rw [Generator.strobeStep, if_neg (by rw [h]; exact Bool.false_ne_true), if_pos rfl]

/-- A level above 0 starts a flash from IDLE, and where the interval ends at this step tick: what the countdown has
changed, the start writes again (R112). -/
theorem Generator.strobeStep_of_start (hv : v ≠ 0) (h : g.strobeCycle = false ∨ g.strobeCount = 1) :
    g.strobeStep v width = g.startFlash v width := by
  cases hcycle : g.strobeCycle with
  | false => rw [Generator.strobeStep, if_neg (by rw [hcycle]; exact Bool.false_ne_true), if_neg hv]
  | true =>
    have hone : g.strobeCount = 1 := h.resolve_left (by rw [hcycle]; decide)
    have hlast : g.strobeCount - 1 = 0 := by rw [hone]
    rw [Generator.strobeStep, if_pos hcycle, if_neg hv, if_pos hlast]
    rfl

theorem Generator.strobeStep_of_count (hv : v ≠ 0) (h : g.strobeCycle = true) (hcount : 2 ≤ g.strobeCount) :
    g.strobeStep v width =
      { g with strobeCount := g.strobeCount - 1, flashRemaining := g.flashRemaining - 1,
               lineActive := if g.flashRemaining = 1 then false else g.lineActive } := by
  have hleft : ¬ g.strobeCount - 1 = 0 := by omega
  rw [Generator.strobeStep, if_pos h, if_neg hv, if_neg hleft]

end

section

variable {g : Generator} {c : Channel}

/-! ## PULSE -/

theorem Generator.pulseStep_of_le_off (h : c.demanded ≤ c.offThreshold) :
    g.pulseStep c = { g.pulseCountdown with pulseArmed := true } := by
  rw [Generator.pulseStep, if_pos h]

/-- Above the Off Threshold, without a level and an arming that trigger, the countdown is all (R116). -/
theorem Generator.pulseStep_of_no_trigger (hoff : c.offThreshold < c.demanded)
    (h : c.demanded < c.onThreshold ∨ g.pulseArmed = false) : g.pulseStep c = g.pulseCountdown := by
  have htrigger : ¬ (c.onThreshold ≤ c.demanded ∧ g.pulseCountdown.pulseArmed = true) := by
    rintro ⟨hon, harmed⟩
    rcases h with hlt | hnot
    · exact BitVec.not_le.2 hlt hon
    · exact Bool.false_ne_true (hnot.symm.trans harmed)
  rw [Generator.pulseStep, if_neg (BitVec.not_le.2 hoff), if_neg htrigger]

theorem Generator.pulseStep_of_trigger (hoff : c.offThreshold < c.demanded) (hon : c.onThreshold ≤ c.demanded)
    (harmed : g.pulseArmed = true) :
    g.pulseStep c = g.pulseCountdown.trigger c.pulseWidth c.retrigger := by
  rw [Generator.pulseStep, if_neg (BitVec.not_le.2 hoff), if_pos ⟨hon, harmed⟩]

/-- A trigger while a pulse runs on, without Retrigger, only disarms (R117). -/
theorem Generator.trigger_of_consumed {width : Byte} (h : g.pulseRemaining ≠ 0) :
    g.trigger width false = { g with pulseArmed := false } := by
  simp only [Generator.trigger, h, decide_false, Bool.or_false, Bool.false_eq_true, if_false]

/-- A trigger starts a pulse where none runs, and restarts the running one with Retrigger (R117). -/
theorem Generator.trigger_of_start {width : Byte} {retrigger : Bool} (h : g.pulseRemaining = 0 ∨ retrigger = true) :
    g.trigger width retrigger = { g with pulseArmed := false, pulseRemaining := width.toNat, lineActive := true } := by
  rw [Generator.trigger, if_pos (by simpa using h)]

end

/-- Settles O41: each mode's step, case by case. -/
theorem generatorsFollowTheDemandedLevel : Obligations.GeneratorsFollowTheDemandedLevel := by
  unfold Obligations.GeneratorsFollowTheDemandedLevel
  intro g c
  refine ⟨Generator.step_of_disabled, Generator.step_dim, fun h hm => ?switch, fun h hm => ?strobe,
    fun h hm => ?pulse⟩
  case switch =>
    rw [Generator.step_switch h hm]
    exact ⟨Generator.switchStep_of_on_le, Generator.switchStep_of_le_off, Generator.switchStep_of_between⟩
  case strobe =>
    rw [Generator.step_strobe h hm]
    refine ⟨fun hv hcycle => ?_, fun hv hidle => ?_, Generator.strobeStep_of_start, Generator.strobeStep_of_count⟩
    · rw [hv, Generator.strobeStep_zero_of_cycle hcycle]
    · rw [hv, Generator.strobeStep_zero_of_idle hidle]
  case pulse =>
    rw [Generator.step_pulse h hm]
    refine ⟨Generator.pulseStep_of_le_off, Generator.pulseStep_of_no_trigger, fun hoff hon harmed => ?_⟩
    rw [Generator.pulseStep_of_trigger hoff hon harmed]
    refine ⟨fun ⟨hrunning, hretrigger⟩ => ?consumed, fun hstart => ?started⟩
    case consumed =>
      have hleft : g.pulseCountdown.pulseRemaining ≠ 0 := Nat.sub_ne_zero_of_lt hrunning
      rw [hretrigger, Generator.trigger_of_consumed hleft]
      rfl
    case started =>
      rw [Generator.trigger_of_start (hstart.imp_left Nat.sub_eq_zero_of_le)]
      rfl

end Sys2Proof.Machine
end

section
/-! PROOFS. The PWM clock, the period end and the end of the active part (spec/05, sections 5.2 and 5.3: R106 to R109):
each case (O42), and the last two as runs of clocks (log 7; O43). -/

namespace Sys2Proof.Machine

/-! ## One generator -/

section

variable {g : Generator} {mode : Mode}

/-- A period end in DIM: the duty is computed anew exactly where a Pending Period or a Pending Duty is present (R107,
R109). -/
theorem Generator.periodEnd_dim (g : Generator) {duty : Nat}
    (h : duty =
      if g.pendingPeriod = none ∧ g.pendingDuty = none then g.activeDuty
      else dutyOf (g.pendingDuty.getD g.appliedLevel) (g.pendingPeriod.getD g.runningPeriod)) :
    g.periodEnd .dim =
      { g with
        counter := 0, runningPeriod := g.pendingPeriod.getD g.runningPeriod, pendingPeriod := none,
        appliedLevel := g.pendingDuty.getD g.appliedLevel, pendingDuty := none, activeDuty := duty,
        lineActive := decide (0 < duty) } := by
  subst h
  cases hperiod : g.pendingPeriod <;> cases hduty : g.pendingDuty <;>
    simp [Generator.periodEnd, hperiod, hduty]

theorem Generator.periodEnd_of_ne_dim (h : mode ≠ .dim) :
    g.periodEnd mode =
      { g with counter := 0, runningPeriod := g.pendingPeriod.getD g.runningPeriod, pendingPeriod := none } := by
  rw [Generator.periodEnd, if_neg h]

/-- A period end does not depend on where the counter stood, and in DIM not on the line (R106, R109). -/
theorem Generator.periodEnd_congr_counter (g : Generator) (mode : Mode) (counter : Nat) (line : Bool) :
    ({ g with counter := counter, lineActive := if mode = .dim then line else g.lineActive } : Generator).periodEnd mode
      = g.periodEnd mode := by
  by_cases h : mode = .dim
  · subst h
    simp only [Generator.periodEnd, if_true]
  · simp only [Generator.periodEnd, if_neg h]

theorem Generator.pwmClock_of_last (h : g.runningPeriod.toNat ≤ g.counter + 1) :
    g.pwmClock mode = g.periodEnd mode := by
  rw [Generator.pwmClock, if_pos h]

theorem Generator.pwmClock_of_within (h : g.counter + 1 < g.runningPeriod.toNat) :
    g.pwmClock mode =
      { g with
        counter := g.counter + 1,
        lineActive := if mode = .dim then decide (g.counter + 1 < g.activeDuty) else g.lineActive } := by
  rw [Generator.pwmClock, if_neg (Nat.not_le.2 h)]

theorem Generator.dutyEnd_of_ahead (hcounter : g.counter < g.activeDuty)
    (hduty : g.activeDuty < g.runningPeriod.toNat) :
    g.dutyEnd = { g with counter := g.activeDuty, lineActive := false } := by
  rw [Generator.dutyEnd, if_pos ⟨hcounter, hduty⟩]

theorem Generator.dutyEnd_of_not_ahead (h : g.activeDuty ≤ g.counter ∨ g.runningPeriod.toNat ≤ g.activeDuty) :
    g.dutyEnd = g := by
  rw [Generator.dutyEnd, if_neg (by omega)]

end

/-! ## The generator of one channel -/

section

variable {s : State} {i : Fin 16} {f : Generator → Mode → Generator}

theorem State.onGenerator_of_disabled (h : s.level.channels[i].enabled = false) : s.onGenerator i f = s := by
  rw [State.onGenerator, if_neg (by rw [h]; exact Bool.false_ne_true)]

theorem State.onGenerator_of_enabled (h : s.level.channels[i].enabled = true) :
    s.onGenerator i f = s.setGenerator i (f s.generators[i] s.level.channels[i].mode) := by
  rw [State.onGenerator, if_pos h, State.setGenerator]

/-- A generator stored where it already stands changes nothing. -/
theorem State.setGenerator_self (s : State) (i : Fin 16) : s.setGenerator i s.generators[i] = s := by
  rw [State.setGenerator, set_getElem_self]

/-- What is done to an enabled channel's generator `n` times is done to that generator alone. -/
theorem State.onGenerator_iterate (h : s.level.channels[i].enabled = true) (n : Nat) :
    (fun t => t.onGenerator i f)^[n] s
      = s.setGenerator i ((fun g => f g s.level.channels[i].mode)^[n] s.generators[i]) := by
  induction n with
  | zero => exact (s.setGenerator_self i).symm
  | succ n ih =>
    rw [Function.iterate_succ_apply', ih, State.onGenerator_of_enabled (s := s.setGenerator i _) h,
      Function.iterate_succ_apply']
    simp [State.setGenerator]

end

/-! ## The three rows -/

theorem exec_pwmClock (i : Fin 16) (s : State) :
    exec (.pwmClock i) s = .next (s.onGenerator i Generator.pwmClock) := rfl

theorem exec_periodEnd (i : Fin 16) (s : State) :
    exec (.periodEnd i) s = .next (s.onGenerator i Generator.periodEnd) := rfl

theorem exec_dimDutyEnd (i : Fin 16) (s : State) :
    exec (.dimDutyEnd i) s = .next (s.onGenerator i fun g mode => if mode = .dim then g.dutyEnd else g) := rfl

/-- Settles O42: each row on the channel's generator, by enable, mode and counter. -/
theorem clockAndPeriodOfAChannel : Obligations.ClockAndPeriodOfAChannel := by
  unfold Obligations.ClockAndPeriodOfAChannel
  intro s i g mode becomes running ended applied duty dimEnded
  have hclock := exec_pwmClock i s
  have hperiod := exec_periodEnd i s
  have hduty := exec_dimDutyEnd i s
  refine ⟨fun h => ?disabled, fun h => ?enabled⟩
  case disabled =>
    rw [hclock, hperiod, hduty]
    simp only [State.onGenerator_of_disabled h, and_self]
  have hbecomes : ∀ {c : Instr} {f : Generator → Mode → Generator} {new : Generator},
      exec c s = .next (s.onGenerator i f) → f g mode = new → becomes c new := by
    rintro c f _ hexec rfl
    simp only [becomes, hexec, State.onGenerator_of_enabled h]
    rfl
  have hdim : mode = .dim → g.periodEnd mode = dimEnded := by
    intro hm
    rw [hm]
    exact g.periodEnd_dim (by rw [dutyOf_eq])
  have hother : mode ≠ .dim → g.periodEnd mode = ended := Generator.periodEnd_of_ne_dim
  refine ⟨fun hm => hbecomes hperiod (hdim hm), fun hm => hbecomes hperiod (hother hm),
    fun hwithin => ⟨fun hm => hbecomes hclock ?clockDim, fun hm => hbecomes hclock ?clockOther⟩,
    fun hlast => ⟨fun hm => hbecomes hclock ?lastDim, fun hm => hbecomes hclock ?lastOther⟩,
    fun hm hcounter hahead => hbecomes hduty ?dutyEnd, fun hnone => ?noDutyEnd⟩
  case clockDim => rw [Generator.pwmClock_of_within hwithin, if_pos hm]
  case clockOther => rw [Generator.pwmClock_of_within hwithin, if_neg hm]
  case lastDim => rw [Generator.pwmClock_of_last hlast.le, hdim hm]
  case lastOther => rw [Generator.pwmClock_of_last hlast.le, hother hm]
  case dutyEnd => rw [if_pos hm, Generator.dutyEnd_of_ahead hcounter hahead]
  case noDutyEnd =>
    have hstays : (if mode = .dim then g.dutyEnd else g) = g := by
      split
      · next hm => exact Generator.dutyEnd_of_not_ahead (hnone.resolve_left (not_not.2 hm))
      · rfl
    rw [hduty, State.onGenerator_of_enabled h, hstays, State.setGenerator_self]

/-! ## Runs of clocks -/

/-- In DIM the line of a generator in order is ACTIVE exactly while the counter is below the Active Duty (R108). -/
theorem Generator.lineActive_iff_of_dim {g : Generator} {c : Channel} (h : g.runningInOrder c) (hm : c.mode = .dim) :
    g.lineActive = true ↔ g.counter < g.activeDuty := by
  obtain ⟨-, hmode⟩ := h
  rw [hm] at hmode
  obtain ⟨-, -, hline⟩ := hmode
  exact hline

/-- The clocks that remain of a period end it: all but the last only count, and the last is the period end (R106). -/
theorem Generator.pwmClock_iterate_period {g : Generator} {c : Channel} (h : g.runningInOrder c) :
    (fun g => g.pwmClock c.mode)^[g.runningPeriod.toNat - g.counter] g = g.periodEnd c.mode := by
  have ⟨⟨_, hcounter, _⟩, _⟩ := h
  obtain ⟨k, hk⟩ : ∃ k, g.runningPeriod.toNat - g.counter = k + 1 := ⟨_, (Nat.succ_pred (by omega)).symm⟩
  rw [hk, Function.iterate_succ_apply',
    Generator.pwmClock_iterate g c.mode (Generator.lineActive_iff_of_dim h) k (by omega),
    Generator.pwmClock_of_last (by dsimp only; omega), Generator.periodEnd_congr_counter]

/-- The clocks up to the Active Duty bring the counter there, where the line is INACTIVE (R108). -/
theorem Generator.pwmClock_iterate_duty {g : Generator} {c : Channel} (h : g.runningInOrder c) (hm : c.mode = .dim)
    (hcounter : g.counter < g.activeDuty) (hduty : g.activeDuty < g.runningPeriod.toNat) :
    (fun g => g.pwmClock c.mode)^[g.activeDuty - g.counter] g = g.dutyEnd := by
  have hsum : g.counter + (g.activeDuty - g.counter) = g.activeDuty := by omega
  rw [Generator.pwmClock_iterate g c.mode (Generator.lineActive_iff_of_dim h) _ (by omega), hsum, if_pos hm,
    decide_eq_false (Nat.lt_irrefl _), Generator.dutyEnd_of_ahead hcounter hduty]

/-- The states of a run of clocks of one channel follow each other. -/
theorem exec_pwmClock_iterate (i : Fin 16) (s : State) (k : Nat) :
    exec (.pwmClock i) ((fun t => t.onGenerator i Generator.pwmClock)^[k] s)
      = .next ((fun t => t.onGenerator i Generator.pwmClock)^[k + 1] s) := by
  rw [exec_pwmClock, Function.iterate_succ_apply']

/-- Settles O43: the run is the iterated clock, which acts on the channel's generator alone. -/
theorem periodEndIsARunOfClocks : Obligations.PeriodEndIsARunOfClocks := by
  unfold Obligations.PeriodEndIsARunOfClocks
  intro s i hs h g clocked
  obtain ⟨-, -, hon⟩ := hs i
  have horder := hon h
  have hrun : ∀ n, clocked n (s.setGenerator i ((fun g => g.pwmClock s.level.channels[i].mode)^[n] g)) := fun n =>
    ⟨fun k => (fun t => t.onGenerator i Generator.pwmClock)^[k] s, rfl, State.onGenerator_iterate h n,
      fun k _ => exec_pwmClock_iterate i s k⟩
  refine ⟨⟨_, exec_periodEnd i s, ?period⟩, fun hm hcounter hduty => ⟨_, exec_dimDutyEnd i s, ?duty⟩⟩
  case period =>
    rw [State.onGenerator_of_enabled h, ← Generator.pwmClock_iterate_period horder]
    exact hrun _
  case duty =>
    rw [State.onGenerator_of_enabled h, if_pos hm, ← Generator.pwmClock_iterate_duty horder hm hcounter hduty]
    exact hrun _

end Sys2Proof.Machine
end

section
/-! PROOFS. What ends an active interlock (spec/06, sections 6.4 and 6.6: R139 to R142, R145; O58): the operations that
leave the Sense Unit alone, those that write it without touching the interlock, and the request that clears it. -/

namespace Sys2Proof.Machine

/-! ## The end of a frame -/

/-- A reset with a scope other than NODE leaves the Sense Unit alone (R145). -/
theorem SenseUnit.nodeReset_of_ne {scope : Scope} (h : scope ≠ .node) (u : SenseUnit) : u.nodeReset scope = u := by
  cases scope with
  | outputs | tables | events => rfl
  | node => exact absurd rfl h

theorem State.sense_endFrame {s : State} (h : s.agent.resetScope ≠ some .node) : s.endFrame.sense = s.sense := by
  unfold State.endFrame
  split
  · rfl
  · next scope hscope =>
    obtain ⟨-, -, -, -, -, hsense, -⟩ := s.applyReset_blocks scope
    have hne : scope ≠ .node := fun hnode => h (hscope.trans (congrArg some hnode))
    rw [hsense, SenseUnit.nodeReset_of_ne hne]

theorem State.sense_truncate {s : State} (h : s.agent.resetScope ≠ some .node) : s.truncate.sense = s.sense :=
  State.sense_endFrame h

theorem State.sense_endChecked {s : State} (h : s.agent.resetScope ≠ some .node) (b : Byte) :
    (s.endChecked b).sense = s.sense :=
  State.sense_endFrame h

/-! ## Headers -/

@[simp] theorem State.sense_badHeader (s : State) : s.badHeader.sense = s.sense := by
  obtain ⟨-, -, -, -, -, -, -, hsense, -⟩ := s.badHeader_frame
  exact hsense

@[simp] theorem State.sense_raise? (s : State) (e : Option Event) : (s.raise? e).sense = s.sense := by
  obtain ⟨-, -, -, -, -, hsense, -⟩ := s.raise?_frame e
  exact hsense

@[simp] theorem State.sense_afterLockedHeader (s : State) (h : Header) :
    (s.afterLockedHeader h).sense = s.sense := by
  unfold State.afterLockedHeader
  rw [State.decideActing_eq]
  dsimp only
  split
  · obtain ⟨-, -, -, -, -, hsense, -⟩ := s.boundary_frame h
    exact hsense
  · rfl

@[simp] theorem State.sense_takeHeader (s : State) (h : Header) : (s.takeHeader h).sense = s.sense := by
  unfold State.takeHeader
  split
  · rfl
  · rfl
  · split
    · rw [State.enterLocked, State.sense_afterLockedHeader, State.sense_raise]
    · rfl
  · rw [State.lockedHeader, State.sense_afterLockedHeader, State.sense_raise?, State.sense_raise?]

@[simp] theorem State.sense_headerEighth (s : State) (b : Byte) : (s.headerEighth b).sense = s.sense := by
  unfold State.headerEighth
  dsimp only
  split
  · rw [State.sense_takeHeader]
  · rw [State.sense_badHeader]

/-! ## Slots -/

/-- A TAP or an INSERT writes no more of the Sense Unit than a Fresh (R66). -/
@[simp] theorem State.active_perform (s : State) (entry : Entry) (received sent : Byte) :
    (s.perform entry received sent).1.sense.active = s.sense.active := by
  unfold State.perform
  split
  · rfl
  · unfold State.afterInsert
    split <;> rfl

@[simp] theorem State.active_walkSlot (number : Nat) (received : Byte) (entries : List Entry) :
    ∀ (s : State) (sent : Byte),
      (State.walkSlot number received entries s sent).1.sense.active = s.sense.active := by
  induction entries with
  | nil => exact fun _ _ => rfl
  | cons entry rest ih =>
    intro s sent
    unfold State.walkSlot
    split
    · exact (ih _ _).trans (s.active_perform entry received sent)
    · rfl

@[simp] theorem State.active_slotByte (s : State) (b : Byte) (place slots : Nat) :
    (s.slotByte b place slots).sense.active = s.sense.active := by
  show (s.slotActions (place - 25) b).1.sense.active = s.sense.active
  unfold State.slotActions
  split
  · rw [State.active_walkSlot]
  · rfl

/-! ## Requests -/

/-- The interlock is active in the one state and inactive in the other. -/
def State.endsInterlock (s t : State) : Prop := s.sense.active = true ∧ t.sense.active = false

/-- Where the interlock is as it was, it has not ended. -/
theorem State.not_endsInterlock {s t : State} (h : t.sense.active = s.sense.active) : ¬ s.endsInterlock t := by
  rintro ⟨hon, hoff⟩
  rw [h, hon] at hoff
  cases hoff

/-- WRITE_SENSE stores settings alone (R143). -/
theorem reqWriteSense_active (q : Req) (s : State) : (reqWriteSense q s).1.sense.active = s.sense.active := by
  unfold reqWriteSense
  dsimp only
  split
  · rfl
  · next sense hwritten =>
    show sense.active = s.sense.active
    split at hwritten
    · obtain ⟨l, -, rfl⟩ := Option.map_eq_some_iff.1 hwritten
      rfl
    · split_ifs at hwritten
      unfold SenseUnit.writeGlobal at hwritten
      split at hwritten
      · cases hwritten
        rfl
      · cases hwritten

/-- A request other than CLEAR_INTERLOCK leaves the interlock alone. -/
theorem RequestCode.run_active {c : RequestCode} (hc : c ≠ .clearInterlock) (q : Req) (s : State) :
    (c.run q s).1.sense.active = s.sense.active := by
  by_cases hblock : c ∈ agentOrSense
  · cases c <;> simp [agentOrSense] at hblock <;> simp only [RequestCode.run]
    case clearInterlock => exact absurd rfl hc
    case writeSense => exact reqWriteSense_active q s
    case clearFlags | setReportMask => rfl
    case setNode => unfold reqSetNode; split <;> rfl
    case fetchEvent => unfold reqFetchEvent; split <;> rfl
    case resetNode => unfold reqResetNode; split <;> rfl
  · obtain ⟨-, -, -, -, hsense⟩ := RequestCode.run_keepsBlocks hblock q s
    rw [hsense]

/-- A request that ends an active interlock is CLEAR_INTERLOCK, and the match is false (R140). -/
theorem RequestCode.run_endsInterlock {c : RequestCode} {q : Req} {s : State}
    (h : s.endsInterlock (c.run q s).1) : c = .clearInterlock ∧ s.sense.matchState = false := by
  have hcode : c = .clearInterlock := by
    by_contra hc
    exact State.not_endsInterlock (RequestCode.run_active hc q s) h
  subst hcode
  refine ⟨rfl, Bool.eq_false_iff.2 fun hmatch => State.not_endsInterlock ?_ h⟩
  rw [RequestCode.run, reqClearInterlock_of_match h.1 hmatch]

/-- So is a request handed to the Agent, whether or not it is for this node (R146, R148). -/
theorem State.agentRequest_endsInterlock {s : State} {c : RequestCode} {q : Req}
    (h : s.endsInterlock (s.agentRequest c q)) : c = .clearInterlock ∧ s.sense.matchState = false := by
  rcases s.agentRequest_cases c q with e | e | e | e <;> rw [e] at h
  · exact absurd h (State.not_endsInterlock rfl)
  · exact absurd h (State.not_endsInterlock rfl)
  · exact RequestCode.run_endsInterlock h
  · rw [State.endsInterlock, State.sense_writeReply] at h
    exact RequestCode.run_endsInterlock h

/-- A request row does so where the link is LOCKED, since nowhere else is a cell handed over (R19; log 4). -/
theorem State.request_endsInterlock {s : State} {c : RequestCode} {q : Req} (h : s.endsInterlock (s.request c q)) :
    c = .clearInterlock ∧ s.sense.matchState = false ∧ s.link.state = .locked := by
  by_cases hcell : s.cellHanded
  · rw [State.request, if_pos (State.handsCell_of_cellHanded hcell)] at h
    obtain ⟨hcode, hmatch⟩ := State.agentRequest_endsInterlock h
    exact ⟨hcode, hmatch, hcell.1⟩
  · rw [State.request, State.handsCell_of_not hcell] at h
    exact absurd h (State.not_endsInterlock rfl)

/-! ## Cells -/

/-- The Code byte of the request it names (R182). -/
theorem byte_of_requestOf {code : Byte} {c : RequestCode} (h : requestOf code = some c) : c.byte = code := by
  simpa using List.find?_some h

/-- A Code that names no request leaves the Sense Unit alone (R149). -/
@[simp] theorem State.sense_agentUnknown (s : State) (code : Byte) (q : Req) :
    (s.agentUnknown code q).sense = s.sense := by
  unfold State.agentUnknown
  split_ifs
  · rw [State.sense_writeReply]
  · rw [State.sense_setBadBroadcast]
  · rfl

/-- A cell handed to the Agent ends the interlock only as the request CLEAR_INTERLOCK (R140, R182). -/
theorem State.agentCell_endsInterlock {s : State} {kind code : Byte} {q : Req}
    (h : s.endsInterlock (s.agentCell kind code q)) : kind = 0x01 ∧ code = 0x33 ∧ s.sense.matchState = false := by
  by_cases hkind : kind = 0x01
  · cases hcode : requestOf code with
    | some c =>
      simp only [State.agentCell, if_pos hkind, hcode] at h
      obtain ⟨rfl, hmatch⟩ := State.agentRequest_endsInterlock h
      exact ⟨hkind, (byte_of_requestOf hcode).symm, hmatch⟩
    | none =>
      simp only [State.agentCell, if_pos hkind, hcode] at h
      exact absurd h (State.not_endsInterlock (by rw [State.sense_agentUnknown]))
  · rw [State.agentCell_of_passed (.inl hkind)] at h
    exact absurd h (State.not_endsInterlock rfl)

/-- The byte completes a CLEAR_INTERLOCK cell in LOCKED while the match is false (R140). -/
def State.clearedByCell (s : State) (b : Byte) : Prop :=
  s.sense.matchState = false ∧ s.link.state = .locked ∧ ∃ q, s.link.cell ++ [b] = requestBytes 0x33 q

theorem State.cellLast_endsInterlock {s : State} {b : Byte} {slots : Nat} (hlocked : s.link.state = .locked)
    (h : s.endsInterlock (s.cellLast b slots)) : s.clearedByCell b := by
  unfold State.cellLast at h
  dsimp only at h
  split at h
  · exact absurd h (State.not_endsInterlock rfl)
  · next kind code q hcell =>
    split at h
    · obtain ⟨rfl, rfl, hmatch⟩ :=
        State.agentCell_endsInterlock (s := { s with link := s.link.cellArrived b slots }) h
      exact ⟨hmatch, hlocked, q, requestBytes_of_cellOf _ _ q hcell⟩
    · exact absurd h (State.not_endsInterlock rfl)

/-! ## Bytes -/

theorem State.flightByte_endsInterlock {s : State} {b : Byte} {place slots : Nat} (hlocked : s.link.state = .locked)
    (hnode : s.agent.resetScope ≠ some .node) (h : s.endsInterlock (s.flightByte b place slots)) :
    s.clearedByCell b := by
  unfold State.flightByte at h
  split_ifs at h
  · exact absurd h (State.not_endsInterlock rfl)
  · exact State.cellLast_endsInterlock hlocked h
  · exact absurd h (State.not_endsInterlock (s.active_slotByte b place slots))
  · exact absurd h (State.not_endsInterlock rfl)
  · exact absurd h (State.not_endsInterlock (by rw [State.sense_endChecked hnode]))

/-- A data byte ends the interlock only as the last of a CLEAR_INTERLOCK cell. -/
theorem State.receiveByte_endsInterlock {s : State} {b : Byte} (hnode : s.agent.resetScope ≠ some .node)
    (h : s.endsInterlock (s.receiveByte b)) : s.clearedByCell b := by
  have hsense : (s.receiveByte b).sense ≠ s.sense := fun e => State.not_endsInterlock (congrArg _ e) h
  by_cases hd : s.link.state = .down
  · exact absurd (by rw [State.receiveByte_of_down hd]) hsense
  cases hf : s.link.frame with
  | between => exact absurd (by rw [State.receiveByte_of_between hd hf]; rfl) hsense
  | bad => exact absurd (by rw [State.receiveByte_of_bad hd hf]) hsense
  | header =>
    by_cases hl : s.link.header.length < 7
    · exact absurd (by rw [State.receiveByte_of_header hd hf hl]; rfl) hsense
    · exact absurd (by rw [State.receiveByte_of_seven hd hf (by omega), State.sense_headerEighth]) hsense
  | good place slots =>
    by_cases hl : s.link.state = .locked
    · rw [State.receiveByte_of_locked hl hf] at h
      exact State.flightByte_endsInterlock hl hnode h
    · exact absurd (by rw [State.receiveByte_of_pass hd hl hf]; rfl) hsense

/-! ## The other symbols, the frame timeout and the ticks -/

theorem State.sense_receiveEnd {s : State} (h : s.agent.resetScope ≠ some .node) (sym : Sym) :
    (s.receiveEnd sym).sense = s.sense := by
  by_cases hd : s.link.state = .down
  · rw [State.receiveEnd_of_down hd]
  cases hf : s.link.frame with
  | between => rw [State.receiveEnd_of_between hd hf]; rfl
  | bad => rw [State.receiveEnd_of_bad hd hf]
  | header => rw [State.receiveEnd_of_header hd hf, State.sense_badHeader]
  | good place slots =>
    by_cases hl : s.link.state = .locked
    · rw [State.receiveEnd_of_locked hl hf]
      exact State.sense_truncate h
    · rw [State.receiveEnd_of_pass hd hl hf]

theorem State.sense_endForMarker {s : State} (h : s.agent.resetScope ≠ some .node) :
    s.endForMarker.sense = s.sense := by
  unfold State.endForMarker
  split
  · rfl
  · exact s.sense_badHeader
  · rfl
  · split
    · exact State.sense_truncate h
    · rfl

/-- The expiry ends the frame in flight, in either order with LINK_STATE (R8, R168). -/
theorem State.sense_expire {s : State} (h : s.agent.resetScope ≠ some .node) : s.expire.sense = s.sense := by
  have ended : ∀ t : State, t.agent.resetScope = s.agent.resetScope →
      (if t.link.inFlight then t.truncate else t : State).sense = t.sense := by
    intro t ht
    split
    · exact State.sense_truncate (ht ▸ h)
    · rfl
  have unlocked : s.unlockForTimeout.sense = s.sense := by
    unfold State.unlockForTimeout
    dsimp only
    split
    · exact ended _ (Agent.resetScope_take _ _ _)
    · split
      · exact ended _ (Agent.resetScope_take _ _ _)
      · exact ended { s with choices := s.choices + 1 } rfl
  unfold State.expire
  split
  · rfl
  · exact unlocked
  · rfl
  · rfl

/-- A base tick sets the interlock and never ends it (R139, R141). -/
theorem State.active_baseTick {s : State} (h : s.sense.active = true) (sns : Byte) :
    (s.baseTick sns).sense.active = true := by
  rw [State.baseTick_eq]
  show (s.sense.active || _) = true
  rw [h, Bool.true_or]

/-- A completion leaves the Sense Unit alone. -/
theorem State.sense_complete (s : State) (finish : MapStore → MapStore × Option Event) (part : Completion) :
    (s.complete finish part).sense = s.sense := by
  obtain ⟨-, -, -, -, -, hsense, -⟩ := s.complete_spec finish part
  exact hsense

/-! ## Every command -/

/-- The one row that carries the request CLEAR_INTERLOCK. -/
theorem eq_clearInterlock_of_requestRow {i : Instr} {q : Req} (h : requestRow i = some (.clearInterlock, q)) :
    i = .clearInterlock q := by
  cases i <;> cases h
  rfl

/-- Settles O58: a command that is no power-on, where no reset with scope NODE is pending, keeps the interlock but for
a request row, which is CLEAR_INTERLOCK, and a data byte, which completes such a cell. -/
theorem interlockEndsOnlyWhereItMay : Obligations.InterlockEndsOnlyWhereItMay := by
  unfold Obligations.InterlockEndsOnlyWhereItMay
  intro s t c hexec hon hoff
  by_cases hnode : s.agent.resetScope = some .node
  · exact .inr (.inl hnode)
  have hends : s.endsInterlock t := ⟨hon, hoff⟩
  have hkept : t.sense.active ≠ s.sense.active := fun e => State.not_endsInterlock e hends
  cases hrow : requestRow c with
  | some row =>
    obtain ⟨code, q⟩ := row
    rw [exec_requestRow hrow] at hexec
    cases hexec
    obtain ⟨rfl, hmatch, hlocked⟩ := State.request_endsInterlock hends
    exact .inr (.inr ⟨hmatch, hlocked, .inl ⟨q, eq_clearInterlock_of_requestRow hrow⟩⟩)
  | none =>
    cases c with
    | powerOn sns => exact .inl ⟨sns, .inl rfl⟩
    | resetNRelease sns => exact .inl ⟨sns, .inr rfl⟩
    | dataByteArrival b | headerEighthByteArrival b | cellLastByteArrival b | slotArrival b =>
      cases hexec
      obtain ⟨hmatch, hlocked, q, hcell⟩ := State.receiveByte_endsInterlock hnode hends
      exact .inr (.inr ⟨hmatch, hlocked, .inr ⟨b, q, hcell, .inl (by simp)⟩⟩)
    | frameCheckSecondByteArrival b sns =>
      cases hexec
      obtain ⟨hmatch, hlocked, q, hcell⟩ := State.receiveByte_endsInterlock (s := s.setPins sns) hnode hends
      exact .inr (.inr ⟨hmatch, hlocked, .inr ⟨b, q, hcell, .inr ⟨sns, rfl⟩⟩⟩)
    | frameStartMarkerArrival sns =>
      cases hexec
      exact absurd (congrArg SenseUnit.active (State.sense_endForMarker (s := s.setPins sns) hnode)) hkept
    | abortMarkerArrival sns | idleArrival sns =>
      cases hexec
      exact absurd (congrArg SenseUnit.active (State.sense_receiveEnd (s := s.setPins sns) hnode _)) hkept
    | frameTimeoutExpiry sns =>
      cases hexec
      have hexpire := congrArg SenseUnit.active (State.sense_expire (s := s.setPins sns) hnode)
      refine absurd ?_ hkept
      split
      · exact hexpire
      · rfl
    | baseTick sns =>
      cases hexec
      exact absurd ((State.active_baseTick hon sns).trans hon.symm) hkept
    | stepTick =>
      cases hexec
      refine absurd ?_ hkept
      split
      · obtain ⟨-, -, -, hsense, -⟩ := s.stepOperation_frame
        exact congrArg SenseUnit.active hsense
      · rfl
    | copyComplete part | commitComplete part =>
      cases hexec
      exact absurd (congrArg SenseUnit.active (s.sense_complete _ part)) hkept
    | periodEnd channel | dimDutyEnd channel | pwmClock channel =>
      cases hexec
      exact absurd (by rw [State.onGenerator_frame]) hkept
    | symbolSend | copyEntryCopied | commitEntryExamined =>
      cases hexec
      exact absurd rfl hkept
    | _ => cases hrow

end Sys2Proof.Machine
end

section
/-! PROOFS. The base tick operation of the Sense Unit (spec/06, sections 6.1 to 6.4; O36, O37): the filter and the
capture of each line, and the match that may trip the interlock. -/

namespace Sys2Proof.Machine

/-! ## The filter -/

section
variable {l : SenseLine} {sample : Bool}

/-- A sample at the Filtered Level ends the run (R128). -/
theorem SenseLine.filter_of_same (hon : l.filterOn = true) (h : sample = l.high) :
    l.filter sample = ({ l with run := 0 }, none) := by
  rw [SenseLine.filter, if_pos hon, if_pos h]

/-- A sample that differs lengthens the run (R128). -/
theorem SenseLine.filter_of_run (hon : l.filterOn = true) (h : sample ≠ l.high) (hrun : l.run ≠ 3) :
    l.filter sample = ({ l with run := l.run + 1 }, none) := by
  rw [SenseLine.filter, if_pos hon, if_neg h, if_neg hrun]

/-- The fourth such sample in a row is the new Filtered Level (R128). -/
theorem SenseLine.filter_of_fourth (hon : l.filterOn = true) (h : sample ≠ l.high) (hrun : l.run = 3) :
    l.filter sample = ({ l with high := sample, run := 0 }, some (.to sample)) := by
  rw [SenseLine.filter, if_pos hon, if_neg h, if_pos hrun]

/-- With Filter OFF the level is the sample (R129). -/
theorem SenseLine.filter_of_off (hoff : l.filterOn = false) :
    (l.filter sample).1 = { l with high := sample } := by
  rw [SenseLine.filter, if_neg (Bool.eq_false_iff.1 hoff)]
  split
  · next h => rw [h]
  · rfl

end

/-- A Run Count below 3 advances without wrapping. -/
theorem run_succ_val {run : Fin 4} (h : run.val < 3) : (run + 1).val = run.val + 1 :=
  Fin.val_add_one_of_lt (Fin.lt_def.2 h)

/-- Settles O36: the filter by its setting, the sample and the run, and the capture where an edge is admitted. -/
theorem senseLinesAreFilteredAndCaptured : Obligations.SenseLinesAreFilteredAndCaptured := by
  unfold Obligations.SenseLinesAreFilteredAndCaptured
  intro s sns
  refine ⟨s.baseTick sns, rfl, fun i => ?_⟩
  rw [State.baseTick_eq]
  dsimp only
  rw [SenseUnit.lines_baseTick, Timebase.captureClock_baseTick]
  generalize s.sense.lines[i] = l
  generalize s.time.captureClock + 1 = clock
  obtain ⟨hhigh, hrun, hfilter, hcondition, henable, hedge, -⟩ := l.tick_frame (sns.getLsbD i.val) clock
  obtain ⟨hcaptured, hkept, -⟩ := l.tick_record (sns.getLsbD i.val) clock
  refine ⟨⟨hfilter, hcondition, henable, hedge⟩, fun hon h => ?same, fun hon h hlt => ?run,
    fun hon h hthree => ?fourth, fun hoff => ?off, hcaptured, hkept⟩ <;> rw [hhigh, hrun]
  case same => rw [SenseLine.filter_of_same hon h]; exact ⟨rfl, rfl⟩
  case run =>
    rw [SenseLine.filter_of_run hon h fun h3 => by simp [h3] at hlt]
    exact ⟨rfl, run_succ_val hlt⟩
  case fourth => rw [SenseLine.filter_of_fourth hon h hthree]; exact ⟨rfl, rfl⟩
  case off => rw [SenseLine.filter_of_off hoff]; exact ⟨rfl, rfl⟩

/-! ## The match -/

/-- The filtered edge of a line is the change of its Filtered Level (R128). -/
theorem SenseLine.tick_edge (l : SenseLine) (sample : Bool) (clock : BitVec 15) :
    (l.tick sample clock).2.1
      = if (l.tick sample clock).1.high = l.high then none else some (.to (l.tick sample clock).1.high) := by
  obtain ⟨hhigh, -, -, -, -, -, hedge⟩ := l.tick_frame sample clock
  rw [hedge, hhigh, SenseLine.filter_edge]

/-- The Filtered Level falls from one base tick to the next (R127). -/
def SenseLine.fallsTo (l m : SenseLine) : Prop := l.high = true ∧ m.high = false

/-- The Filtered Level rises from one base tick to the next (R127). -/
def SenseLine.risesTo (l m : SenseLine) : Prop := l.high = false ∧ m.high = true

/-- The edge condition of the line, now `m`, fires at its change from `l` (section 6.2). -/
def SenseLine.firesAt (l m : SenseLine) : Prop :=
  m.condition = .fall ∧ l.fallsTo m ∨ m.condition = .rise ∧ l.risesTo m
    ∨ m.condition = .anyEdge ∧ (l.fallsTo m ∨ l.risesTo m)

theorem SenseLine.edgeFires_iff (l m : SenseLine) :
    m.edgeFires (if m.high = l.high then none else some (.to m.high)) = true ↔ l.firesAt m := by
  unfold SenseLine.firesAt SenseLine.fallsTo SenseLine.risesTo SenseLine.edgeFires Edge.to
  cases hcondition : m.condition <;> cases m.high <;> cases l.high <;> simp

/-- When stage 4 counts (R132, R133): in OR mode where an edge condition fires, and in either mode where the match
begins. -/
theorem SenseUnit.matches_iff (u : SenseUnit) (sns : Byte) (clock : BitVec 15) :
    u.matches sns clock = true ↔
      (u.matchMode = .or ∧ ∃ i : Fin 8, u.lines[i].firesAt (u.baseTick sns clock).lines[i])
        ∨ (u.baseTick sns clock).matchState = true ∧ u.matchState = false := by
  have hstate : (u.baseTick sns clock).matchState
      = matchStateOf u.matchMode (u.sampled sns clock).lines.toList := rfl
  rw [hstate, SenseUnit.matches]
  cases hmode : u.matchMode with
  | or =>
    simp only [matchOccurs, Bool.or_eq_true, Bool.and_eq_true, Bool.not_eq_true', SenseUnit.anyEdgeFires_iff,
      SenseLine.tick_edge, SenseLine.edgeFires_iff, SenseUnit.lines_baseTick, true_and]
  | and => simp [matchOccurs]

/-- The interlock after a base tick (R139, R141). -/
theorem SenseUnit.active_baseTick_iff (u : SenseUnit) (sns : Byte) (clock : BitVec 15) :
    (u.baseTick sns clock).active = true ↔ u.active = true ∨ u.matches sns clock = true ∧ u.armed = true := by
  show (u.active || (u.matches sns clock && u.armed && !u.active)) = true ↔ _
  cases u.active <;> simp

/-! ## The overruns -/

theorem subject_captureOverrun (i : Fin 8) (timestamp : BitVec 15) :
    (Event.captureOverrun i timestamp).subject.byte.toNat = 128 + i.val := by
  show (0x80 ||| BitVec.ofNat 8 i.val : Byte).toNat = _
  revert i
  decide

/-- A line captures at an edge that its Capture Edge does not leave out (R136). -/
theorem SenseLine.capturesAt_iff (l m : SenseLine) : l.capturesAt m.high ↔ l.captureEnable = true
    ∧ (l.risesTo m ∧ l.captureEdge ≠ .fall ∨ l.fallsTo m ∧ l.captureEdge ≠ .rise) := by
  unfold SenseLine.capturesAt SenseLine.risesTo SenseLine.fallsTo
  cases l.captureEdge <;> cases m.high <;> cases l.high <;> simp

/-- The CAPTURE_OVERRUN events are those of the lines that capture with Fresh set (R136). -/
theorem SenseUnit.mem_overruns_iff (u : SenseUnit) (sns : Byte) (clock : BitVec 15) (e : Event) :
    e ∈ u.overruns sns clock ↔ ∃ i : Fin 8, e = .captureOverrun i u.lines[i].timestamp
      ∧ u.lines[i].fresh = true ∧ u.lines[i].capturesAt (u.baseTick sns clock).lines[i].high := by
  simp only [SenseUnit.overruns, List.mem_filterMap, List.mem_finRange, true_and, Option.map_eq_some_iff]
  refine exists_congr fun i => ?_
  have hline : (u.ticked sns clock)[i] = u.lines[i].tick (sns.getLsbD i.val) clock := by simp [SenseUnit.ticked]
  obtain ⟨-, -, hrecord⟩ := u.lines[i].tick_record (sns.getLsbD i.val) clock
  rw [hline, SenseUnit.lines_baseTick]
  constructor
  · rintro ⟨timestamp, hoverrun, rfl⟩
    obtain ⟨rfl, hfresh, hcaptures⟩ := (hrecord timestamp).1 hoverrun
    exact ⟨rfl, hfresh, hcaptures⟩
  · rintro ⟨rfl, hfresh, hcaptures⟩
    exact ⟨_, (hrecord _).2 ⟨rfl, hfresh, hcaptures⟩, rfl⟩

/-- They come by ascending line (R127). -/
theorem SenseUnit.overruns_ascend (u : SenseUnit) (sns : Byte) (clock : BitVec 15) :
    (u.overruns sns clock).Pairwise fun e f => e.subject.byte < f.subject.byte := by
  refine (List.pairwise_lt_finRange 8).filterMap _ fun i j hij e he f hf => ?_
  obtain ⟨_, -, rfl⟩ := Option.map_eq_some_iff.1 he
  obtain ⟨_, -, rfl⟩ := Option.map_eq_some_iff.1 hf
  rw [BitVec.lt_def, subject_captureOverrun, subject_captureOverrun]
  exact Nat.add_lt_add_left hij 128

/-- Settles O37: the match and whether it is counted decide the Match Count, the interlock and the events of stages 4
and 5. -/
theorem matchCountsAndTripsTheInterlock : Obligations.MatchCountsAndTripsTheInterlock := by
  unfold Obligations.MatchCountsAndTripsTheInterlock
  intro s sns
  refine ⟨s.baseTick sns, rfl, ?_⟩
  rw [State.baseTick_eq]
  generalize s.time.baseTick.captureClock = clock
  intro before line rises falls holds fires occurs
  have hholds : (s.sense.baseTick sns clock).matchState = true ↔ holds := matchStateOf_iff _ _
  have hoccurs : s.sense.matches sns clock = true ↔ occurs := by
    rw [SenseUnit.matches_iff, hholds]
    rfl
  have htrips : s.sense.trips sns clock = true ↔ occurs ∧ s.sense.armed = true ∧ s.sense.active = false := by
    simp only [SenseUnit.trips, Bool.and_eq_true, Bool.not_eq_true', hoccurs, and_assoc]
  refine ⟨hholds, fun h => if_pos (hoccurs.2 h), fun h => if_neg (mt hoccurs.1 h), ?active,
    s.sense.overruns sns clock, _, _, rfl, s.sense.overruns_ascend sns clock, fun e => ?overruns,
    fun h => if_pos (hoccurs.2 h), fun h => if_neg (mt hoccurs.1 h), fun h => if_pos (htrips.2 h),
    fun h => if_neg (mt htrips.1 h)⟩
  case active => rw [← hoccurs]; exact s.sense.active_baseTick_iff sns clock
  case overruns =>
    simp only [SenseUnit.mem_overruns_iff, SenseLine.capturesAt_iff]
    rfl

end Sys2Proof.Machine
end

section
/-! PROOFS. WRITE_SENSE and READ_SENSE (spec/06, sections 6.1, 6.3 and 6.5: R129, R136 to R138, R143, R144; O56). -/

namespace Sys2Proof.Machine

/-! ## The settings of a line -/

section
variable {l : SenseLine} {a : Args}

/-- One setting out of range and the line is not written (R143). -/
theorem SenseLine.write_of_invalid
    (h : ¬ (a.a1.toNat ≤ 5 ∧ a.a2.toNat ≤ 1 ∧ a.a3.toNat ≤ 1 ∧ a.a4.toNat ≤ 2)) : l.write a = none := by
  unfold SenseLine.write
  split
  · next hcondition hfilter hcapture hedge =>
    refine absurd ⟨?_, ?_, ?_, ?_⟩ h <;> by_contra hlarge
    · rw [conditionOf_of_six_le (Nat.not_le.1 hlarge)] at hcondition
      cases hcondition
    · rw [flagOf_of_two_le (Nat.not_le.1 hlarge)] at hfilter
      cases hfilter
    · rw [flagOf_of_two_le (Nat.not_le.1 hlarge)] at hcapture
      cases hcapture
    · rw [captureEdgeOf_of_three_le (Nat.not_le.1 hlarge)] at hedge
      cases hedge
  · rfl

/-- A yes/no byte that is not 1 is 0. -/
theorem not_decide_eq_one {n : Nat} (h : n ≤ 1) : (!decide (n = 1)) = decide (n = 0) := by
  rcases Nat.le_one_iff_eq_zero_or_eq_one.1 h with rfl | rfl <;> rfl

/-- Settings in range are stored, with what they do to the Run Count and to Fresh (R129, R137, R143). -/
theorem SenseLine.write_of_valid {condition : Condition} {edge : CaptureEdge} (hcondition : condition.code = a.a1)
    (hedge : edge.code = a.a4) (hfilter : a.a2.toNat ≤ 1) (hcapture : a.a3.toNat ≤ 1) :
    l.write a = some { l with
      condition := condition, filterOn := decide (a.a2.toNat = 0), captureEnable := decide (a.a3.toNat = 1),
      captureEdge := edge, run := if l.filterOn = decide (a.a2.toNat = 0) then l.run else 0,
      fresh := if a.a3.toNat = 0 then false else l.fresh } := by
  have hfresh : (l.fresh && decide (a.a3.toNat = 1)) = if a.a3.toNat = 0 then false else l.fresh := by
    rcases Nat.le_one_iff_eq_zero_or_eq_one.1 hcapture with h | h <;> simp [h]
  simp only [SenseLine.write, conditionOf_of_code condition hcondition, captureEdgeOf_of_code edge hedge,
    flagOf_of_le hfilter, flagOf_of_le hcapture, not_decide_eq_one hfilter, hfresh]

end

/-! ## The global settings -/

section
variable {u : SenseUnit} {a : Args}

theorem SenseUnit.writeGlobal_of_invalid (h : 2 ≤ a.a1.toNat ∨ 2 ≤ a.a2.toNat) : u.writeGlobal a = none := by
  unfold SenseUnit.writeGlobal
  split
  · next hmode harmed =>
    rcases h with h | h
    · rw [matchModeOf_of_two_le h] at hmode
      cases hmode
    · rw [flagOf_of_two_le h] at harmed
      cases harmed
  · rfl

theorem SenseUnit.writeGlobal_of_valid (hmode : a.a1.toNat ≤ 1) (harmed : a.a2.toNat ≤ 1) :
    u.writeGlobal a = some { u with
      matchMode := if a.a1.toNat = 0 then .or else .and, armed := decide (a.a2.toNat = 1) } := by
  simp only [SenseUnit.writeGlobal, matchModeOf_of_le hmode, flagOf_of_le harmed]

end

/-! ## WRITE_SENSE -/

section
variable {q : Req} {s : State} {n : Fin 8}

theorem index_eq_eight (h : q.index.toNat = 8) : q.index = 8 :=
  BitVec.eq_of_toNat_eq h

/-- An Index above 8 names neither a line nor the global settings (R143). -/
theorem reqWriteSense_of_nine_le (h : 9 ≤ q.index.toNat) : reqWriteSense q s = (s, answer q .range) := by
  have hne : q.index ≠ 8 := fun h8 => by simp [h8] at h
  simp only [reqWriteSense, lineOf_of_le (Nat.le_of_succ_le h), if_neg hne]

/-- A line whose settings fail a test is not written. -/
theorem reqWriteSense_line_refused (h : q.index.toNat = n.val) (hrefused : s.sense.lines[n].write q.args = none) :
    reqWriteSense q s = (s, answer q .range) := by
  simp only [reqWriteSense, lineOf_of_eq h, hrefused, Option.map_none]

/-- A line whose settings pass takes the place of the old one. -/
theorem reqWriteSense_line_written {l : SenseLine} (h : q.index.toNat = n.val)
    (hwritten : s.sense.lines[n].write q.args = some l) :
    reqWriteSense q s = ({ s with sense := s.sense.setLine n l }, answer q .ok) := by
  simp only [reqWriteSense, lineOf_of_eq h, hwritten, Option.map_some]

theorem reqWriteSense_global_refused (hrefused : s.sense.writeGlobal q.args = none) :
    reqWriteSense { q with index := 8 } s = (s, answer { q with index := 8 } .range) := by
  have hline : lineOf 8 = none := rfl
  simp only [reqWriteSense, hline, if_true, hrefused]

theorem reqWriteSense_global_written {u : SenseUnit} (hwritten : s.sense.writeGlobal q.args = some u) :
    reqWriteSense { q with index := 8 } s = ({ s with sense := u }, answer { q with index := 8 } .ok) := by
  have hline : lineOf 8 = none := rfl
  simp only [reqWriteSense, hline, if_true, hwritten]

/-! ## READ_SENSE -/

theorem reqReadSense_of_nine_le (h : 9 ≤ q.index.toNat) : reqReadSense q s = (s, answer q .range) := by
  have hne : q.index ≠ 8 := fun h8 => by simp [h8] at h
  simp only [reqReadSense, lineOf_of_le (Nat.le_of_succ_le h), if_neg hne]

theorem reqReadSense_of_line (h : q.index.toNat = n.val) :
    reqReadSense q s = (s, ⟨.ok, s.sense.lines[n].levels, q.index, s.sense.lines[n].args, 0⟩) := by
  simp only [reqReadSense, lineOf_of_eq h, answerArgs]

theorem reqReadSense_global (h : q.index.toNat = 8) :
    reqReadSense q s = (s, ⟨.ok, q.object, q.index, s.sense.globalArgs, 0⟩) := by
  simp only [reqReadSense, lineOf_of_le h.ge, if_pos (index_eq_eight h), answerArgs]

end

/-- The Object of READ_SENSE for a line carries the Filtered Level and Overrun (R184). -/
theorem SenseLine.levels_bits (l : SenseLine) : l.levels.getLsbD 0 = l.high ∧ l.levels.getLsbD 1 = l.overrun := by
  unfold SenseLine.levels
  cases l.high <;> cases l.overrun <;> decide

/-- The last two Arguments of READ_SENSE for a line carry Fresh and the timestamp (R138). -/
theorem SenseLine.args_record (l : SenseLine) : l.args.a5.getLsbD 7 = l.fresh
    ∧ l.args.a5.toNat % 128 * 256 + l.args.a6.toNat = l.timestamp.toNat := by
  have hclock := l.timestamp.isLt
  have hhigh : l.args.a5.toNat = l.fresh.toNat * 128 + l.timestamp.toNat / 256 := by
    show (bit l.fresh ++ l.timestamp.extractLsb' 8 7).toNat = _
    rw [BitVec.toNat_append, ← Nat.shiftLeft_add_eq_or_of_lt (BitVec.isLt _), Nat.shiftLeft_eq,
      BitVec.extractLsb'_toNat, Nat.shiftRight_eq_div_pow, Nat.mod_eq_of_lt (by omega)]
    cases l.fresh <;> rfl
  have hlow : l.args.a6.toNat = l.timestamp.toNat % 256 := BitVec.toNat_setWidth 8 l.timestamp
  rw [getLsbD_seven, hhigh, hlow]
  refine ⟨?_, by omega⟩
  cases l.fresh
  · exact decide_eq_false (by simp; omega)
  · exact decide_eq_true (by simp)

theorem MatchMode.code_eq_iff (m : MatchMode) : (m.code = 0 ↔ m = .or) ∧ (m.code = 1 ↔ m = .and) := by
  cases m <;> decide

/-- Settles O56: the tests of the Index and of the settings, the lines and global settings stored, and the two forms
of READ_SENSE. -/
theorem senseSettingsAndRecords : Obligations.SenseSettingsAndRecords := by
  unfold Obligations.SenseSettingsAndRecords
  intro q s ha a p reads
  have hwrite : ∀ {t : State} {status : Status}, reqWriteSense q s = (t, answer q status) →
      exec (.writeSenseLine q) s = .next (t.writeReply 0x24 q (answer q status)) := fun hrun =>
    exec_of_run_answer (c := .writeSense) ha rfl rfl hrun
  have hglobal : ∀ {t : State} {status : Status}, reqWriteSense p s = (t, answer p status) →
      exec (.writeSenseGlobal q) s = .next (t.writeReply 0x24 p (answer p status)) := fun hrun =>
    exec_of_run_answer (c := .writeSense) ha rfl rfl hrun
  have hread : ∀ {object : Byte} {b : Args}, reqReadSense q s = (s, ⟨.ok, object, q.index, b, 0⟩) →
      reads object b := fun hrun => by
    have hexec := exec_addressed (i := .readSense q) (c := .readSense) rfl ha rfl
    rwa [RequestCode.run, hrun] at hexec
  refine ⟨fun h => ⟨hwrite (reqWriteSense_of_nine_le h), ?readRange⟩,
    fun n h => ⟨fun hbad => hwrite ?invalid, fun condition edge hcondition hedge hfilter hcapture => hwrite ?written,
      ?readLine⟩,
    fun h => hglobal ?globalInvalid, fun hmode harmed => hglobal ?globalWritten, fun h => ?readGlobal⟩
  case readRange => exact exec_of_run_answer (c := .readSense) ha rfl rfl (reqReadSense_of_nine_le h)
  case invalid => exact reqWriteSense_line_refused h (SenseLine.write_of_invalid hbad)
  case written => exact reqWriteSense_line_written h (SenseLine.write_of_valid hcondition hedge hfilter hcapture)
  case readLine =>
    obtain ⟨hhigh, hoverrun⟩ := s.sense.lines[n].levels_bits
    obtain ⟨hfresh, htimestamp⟩ := s.sense.lines[n].args_record
    exact ⟨_, _, hread (reqReadSense_of_line h), hhigh, hoverrun, rfl, flagByte_toNat _, flagByte_toNat _, rfl,
      hfresh, htimestamp⟩
  case globalInvalid => exact reqWriteSense_global_refused (SenseUnit.writeGlobal_of_invalid h)
  case globalWritten => exact reqWriteSense_global_written (SenseUnit.writeGlobal_of_valid hmode harmed)
  case readGlobal =>
    obtain ⟨hor, hand⟩ := s.sense.matchMode.code_eq_iff
    exact ⟨_, hread (reqReadSense_global h), hor, hand, flagByte_toNat _, flagByte_toNat _, flagByte_toNat _, rfl,
      rfl⟩

end Sys2Proof.Machine
end

section
/-! PROOFS. Every command answers a next state and leaves the waiting commands alone (O2): one lemma per operation. -/

namespace Sys2Proof.Machine

/-! ## The end of a frame and headers -/

@[simp] theorem State.pending_raise? (s : State) (e : Option Event) : (s.raise? e).pending = s.pending := by
  obtain ⟨-, -, -, -, -, -, -, -, -, -, -, hpending⟩ := s.raise?_frame e
  exact hpending

@[simp] theorem State.pending_applyReset (s : State) (scope : Scope) : (s.applyReset scope).pending = s.pending := by
  obtain ⟨-, -, -, -, -, -, -, -, -, -, -, hpending⟩ := s.applyReset_blocks scope
  exact hpending

@[simp] theorem State.pending_endFrame (s : State) : s.endFrame.pending = s.pending := by
  unfold State.endFrame
  split
  · rfl
  · exact s.pending_applyReset _

@[simp] theorem State.pending_truncate (s : State) : s.truncate.pending = s.pending := by
  obtain ⟨-, -, -, hpending, -⟩ := s.truncate_frame
  exact hpending

@[simp] theorem State.pending_endChecked (s : State) (b : Byte) : (s.endChecked b).pending = s.pending :=
  State.pending_endFrame _

@[simp] theorem State.pending_badHeader (s : State) : s.badHeader.pending = s.pending := by
  obtain ⟨-, -, -, -, -, -, -, -, -, hpending⟩ := s.badHeader_frame
  exact hpending

@[simp] theorem State.pending_afterLockedHeader (s : State) (h : Header) :
    (s.afterLockedHeader h).pending = s.pending := by
  unfold State.afterLockedHeader
  rw [State.decideActing_eq]
  dsimp only
  split
  · obtain ⟨-, -, -, -, -, -, -, -, -, -, hpending⟩ := s.boundary_frame h
    exact hpending
  · rfl

@[simp] theorem State.pending_takeHeader (s : State) (h : Header) : (s.takeHeader h).pending = s.pending := by
  unfold State.takeHeader
  split
  · rfl
  · rfl
  · split
    · rw [State.enterLocked, State.pending_afterLockedHeader, State.pending_raise]
    · rfl
  · rw [State.lockedHeader, State.pending_afterLockedHeader, State.pending_raise?, State.pending_raise?]

@[simp] theorem State.pending_headerEighth (s : State) (b : Byte) : (s.headerEighth b).pending = s.pending := by
  unfold State.headerEighth
  dsimp only
  split
  · rw [State.pending_takeHeader]
  · rw [State.pending_badHeader]

/-! ## The cell and the Agent -/

@[simp] theorem RequestCode.pending_run (c : RequestCode) (q : Req) (s : State) :
    (c.run q s).1.pending = s.pending := by
  obtain ⟨-, -, -, -, -, -, -, hpending⟩ := (c.run_outcomeShape q s).1
  exact hpending

@[simp] theorem State.pending_agentRequest (s : State) (c : RequestCode) (q : Req) :
    (s.agentRequest c q).pending = s.pending := by
  rcases s.agentRequest_cases c q with e | e | e | e <;> rw [e]
  · rw [State.pending_setBadBroadcast]
  · rw [RequestCode.pending_run]
  · rw [State.pending_writeReply, RequestCode.pending_run]

@[simp] theorem State.pending_agentCell (s : State) (kind code : Byte) (q : Req) :
    (s.agentCell kind code q).pending = s.pending := by
  rcases s.agentCell_cases kind code q with e | e | e | ⟨c, e⟩ <;> rw [e]
  · rw [State.pending_setBadBroadcast]
  · rw [State.pending_writeReply]
  · rw [State.pending_agentRequest]

@[simp] theorem State.pending_request (s : State) (c : RequestCode) (q : Req) :
    (s.request c q).pending = s.pending := by
  unfold State.request
  split
  · rw [State.pending_agentRequest]
  · rfl

/-! ## Bytes of a frame in flight -/

@[simp] theorem State.pending_cellLast (s : State) (b : Byte) (slots : Nat) :
    (s.cellLast b slots).pending = s.pending := by
  unfold State.cellLast
  dsimp only
  split
  · rfl
  · split
    · rw [State.pending_agentCell]
    · rfl

@[simp] theorem State.pending_perform (s : State) (entry : Entry) (received sent : Byte) :
    (s.perform entry received sent).1.pending = s.pending := by
  unfold State.perform
  split
  · rfl
  · unfold State.afterInsert
    split <;> rfl

@[simp] theorem State.pending_walkSlot (number : Nat) (received : Byte) (entries : List Entry) :
    ∀ (s : State) (sent : Byte), (State.walkSlot number received entries s sent).1.pending = s.pending := by
  induction entries with
  | nil => exact fun _ _ => rfl
  | cons entry rest ih =>
    intro s sent
    unfold State.walkSlot
    split
    · exact (ih _ _).trans (s.pending_perform entry received sent)
    · rfl

@[simp] theorem State.pending_slotActions (s : State) (number : Nat) (received : Byte) :
    (s.slotActions number received).1.pending = s.pending := by
  unfold State.slotActions
  split
  · rw [State.pending_walkSlot]
  · rfl

@[simp] theorem State.pending_flightByte (s : State) (b : Byte) (place slots : Nat) :
    (s.flightByte b place slots).pending = s.pending := by
  unfold State.flightByte
  split_ifs
  · rfl
  · rw [State.pending_cellLast]
  · exact s.pending_slotActions _ _
  · rfl
  · rw [State.pending_endChecked]

/-! ## Symbols and the frame timeout -/

@[simp] theorem State.pending_receiveByte (s : State) (b : Byte) : (s.receiveByte b).pending = s.pending := by
  unfold State.receiveByte
  split
  · rfl
  · split
    · rfl
    · split
      · rfl
      · rw [State.pending_headerEighth]
    · rfl
    · split
      · rw [State.pending_flightByte]
      · rfl

@[simp] theorem State.pending_receiveEnd (s : State) (sym : Sym) : (s.receiveEnd sym).pending = s.pending := by
  unfold State.receiveEnd
  split
  · rfl
  · split
    · rfl
    · rw [State.pending_badHeader]
    · rfl
    · split
      · rw [State.pending_truncate]
      · rfl

@[simp] theorem State.pending_endForMarker (s : State) : s.endForMarker.pending = s.pending := by
  rcases s.endForMarker_cases with e | ⟨-, e⟩ | ⟨-, e⟩ <;> rw [e]
  · rw [State.pending_badHeader]
  · rw [State.pending_truncate]

@[simp] theorem State.pending_unlockForTimeout (s : State) : s.unlockForTimeout.pending = s.pending := by
  have ended : ∀ t : State, State.pending (if t.link.inFlight then t.truncate else t) = t.pending := by
    intro t
    split
    · rw [State.pending_truncate]
    · rfl
  unfold State.unlockForTimeout
  dsimp only
  split
  · exact ended _
  · split
    · exact ended _
    · exact ended { s with choices := s.choices + 1 }

@[simp] theorem State.pending_expire (s : State) : s.expire.pending = s.pending := by
  unfold State.expire
  split
  · rfl
  · exact s.pending_unlockForTimeout
  · rfl
  · rfl

/-! ## The step tick -/

@[simp] theorem State.pending_stepConsume (s : State) : s.stepConsume.pending = s.pending := by
  unfold State.stepConsume
  split <;> rfl

@[simp] theorem State.pending_stepFallback (s : State) : s.stepFallback.pending = s.pending := by
  unfold State.stepFallback
  dsimp only
  split_ifs <;> rfl

@[simp] theorem State.pending_stepOverrides (s : State) : s.stepOverrides.pending = s.pending := by
  rw [State.stepOverrides]

@[simp] theorem State.pending_stepOperation (s : State) : s.stepOperation.pending = s.pending := by
  rw [State.stepOperation, State.pending_stepGenerators, State.pending_stepOverrides, State.pending_stepFade,
    State.pending_stepFallback, State.pending_stepConsume, State.pending_stepInputs]

/-! ## Every effect -/

theorem State.pending_of_effect {s t : State} (he : s.Effect t) : t.pending = s.pending := by
  cases he with
  | restart sns => rw [State.pending_restart]
  | marker sns => exact (s.setPins sns).pending_endForMarker
  | byte b => rw [State.pending_receiveByte]
  | lastByte b sns => rw [State.pending_receiveByte, State.pending_setPins]
  | earlyEnd sym sns => rw [State.pending_receiveEnd, State.pending_setPins]
  | send | noExpiry | noStepTick | copyEntry | examineEntry => rfl
  | expiry sns _ => rw [State.pending_expire, State.pending_setPins]
  | baseTick sns => rw [State.baseTick_eq]
  | stepTick _ => exact s.pending_stepOperation
  | periodEnd channel | dutyEnd channel | pwmClock channel => rw [State.onGenerator_frame]
  | copyDone part | commitDone part =>
    obtain ⟨-, -, -, -, -, -, -, -, -, -, -, hpending⟩ := s.complete_spec _ part
    exact hpending
  | request c q => rw [State.pending_request]

/-- Every arm of the dispatch answers a next state. -/
theorem exec_next (c : Instr) (s : State) : ∃ t, exec c s = .next t := by
  cases c <;> exact ⟨_, rfl⟩

/-- On an empty queue the block idles (log 9). -/
theorem step_of_empty {s : State} (h : s.pending = []) : step s = .next s := by
  simp only [step, h]

/-- Settles O2: a command answers a next state, and every effect keeps the waiting commands. -/
theorem noCommandStopsThePart : Obligations.NoCommandStopsThePart := by
  unfold Obligations.NoCommandStopsThePart
  refine ⟨fun c s => ?_, fun s h => step_of_empty h⟩
  obtain ⟨t, ht⟩ := exec_next c s
  exact ⟨t, ht, State.pending_of_effect (exec_effect ht)⟩

end Sys2Proof.Machine
end

section
/-! PROOFS. Cells and request rows at the Agent (spec/07, section 7.1: R146 to R149): a cell that carries a request
(O20), a cell that no row stands for (O21), and a row that is addressed (O22), passed (O23) or a broadcast (O24). -/

namespace Sys2Proof.Machine

/-! ## A cell of Kind REQUEST -/

/-- The state as a cell's last byte leaves it to the Agent (R19). -/
def State.cellTaken (s : State) (b : Byte) (slots : Nat) : State :=
  { s with link := s.link.cellArrived b slots }

/-- A cell of Kind REQUEST whose last byte arrives is handed to the Agent with its Code and its fields (R19, R182). -/
theorem exec_requestCell {s : State} {b : Byte} {slots : Nat} {code : Byte} {q : Req}
    (hlocked : s.link.state = .locked) (hframe : s.link.frame = .good 23 slots)
    (hbytes : s.link.cell ++ [b] = requestBytes code q) :
    exec (.cellLastByteArrival b) s
      = .next (if (s.cellTaken b slots).handsCell then (s.cellTaken b slots).agentCell 0x01 code q
          else s.cellTaken b slots) := by
  have hcell : cellOf (s.link.cell ++ [b]) = some (0x01, code, q) := hbytes ▸ cellOf_requestBytes code q
  rw [exec_cellLast s b slots hlocked hframe]
  simp only [State.cellLast, hcell]
  rfl

/-- At a position of 1 to 250 a cell taken in LOCKED is handed to the Agent (R19). -/
theorem State.handsCell_cellTaken {s : State} {b : Byte} {slots : Nat} (hlocked : s.link.state = .locked)
    (hlow : 1 ≤ s.link.position.toNat) (hhigh : s.link.position.toNat ≤ 250) :
    (s.cellTaken b slots).handsCell = true := by
  refine State.handsCell_of_cellHanded ⟨hlocked, ⟨slots, rfl⟩, fun hzero => ?_, hhigh⟩
  have hposition : s.link.position = 0 := hzero
  simp [hposition] at hlow

/-- A cell whose Code is a request code is that request (R182). -/
theorem State.agentCell_of_byte (s : State) (c : RequestCode) (q : Req) :
    s.agentCell 0x01 c.byte q = s.agentRequest c q := by
  simp only [State.agentCell, if_true, requestOf_byte]

/-- A cell whose Code is none of the request codes (R182). -/
theorem State.agentCell_of_unknown {code : Byte} (h : ∀ c : RequestCode, c.byte ≠ code) (s : State) (q : Req) :
    s.agentCell 0x01 code q = s.agentUnknown code q := by
  have hnone : requestOf code = none := by
    cases hcode : requestOf code with
    | none => rfl
    | some c => exact absurd (byte_of_requestOf hcode) (h c)
  simp only [State.agentCell, if_true, hnone]

/-- Settles O20: the last byte hands over the request that the row hands over. -/
theorem cellCarriesItsRequest : Obligations.CellCarriesItsRequest := by
  unfold Obligations.CellCarriesItsRequest
  intro i c q s b slots hrow hlocked hframe hbytes
  rw [exec_requestCell hlocked hframe hbytes, State.agentCell_of_byte, exec_requestRow hrow]
  rfl

/-! ## Destinations -/

/-- A position of at most 250 is not the broadcast Destination (R20, R148). -/
theorem ne_position_of_broadcast {d position : Byte} (hd : d = 255) (h : position.toNat ≤ 250) : d ≠ position := by
  rintro rfl
  simp [hd] at h

theorem State.agentRequest_of_position {s : State} {q : Req} (h : q.destination = s.link.position) (c : RequestCode) :
    s.agentRequest c q = s.execute c q := by
  rw [State.agentRequest, if_pos h]

/-- A broadcast that is not allowed is counted as bad (R148). -/
theorem State.agentRequest_of_bad_broadcast {s : State} {c : RequestCode} {q : Req} (hd : q.destination = 255)
    (hp : s.link.position.toNat ≤ 250) (hc : c.broadcastAllowed q.object = false) :
    s.agentRequest c q = s.setBadBroadcast := by
  rw [State.agentRequest, if_neg (ne_position_of_broadcast hd hp), if_pos hd, hc, if_neg Bool.false_ne_true]

/-- A broadcast that is allowed is carried out without a reply (R148). -/
theorem State.agentRequest_of_good_broadcast {s : State} {c : RequestCode} {q : Req} (hd : q.destination = 255)
    (hp : s.link.position.toNat ≤ 250) (hc : c.broadcastAllowed q.object = true) :
    s.agentRequest c q = (c.run q s).1 := by
  rw [State.agentRequest, if_neg (ne_position_of_broadcast hd hp), if_pos hd, if_pos hc]

/-! ## Objects that no row stands for -/

/-- The request codes some of whose Objects no row stands for, with the first such Object (R83, R159, R165). -/
def RequestCode.unfit (c : RequestCode) (object : Byte) : Prop :=
  c = .writeChannel ∧ 3 ≤ object.toNat ∨ c = .setOverride ∧ 3 ≤ object.toNat ∨ c = .resetNode ∧ 4 ≤ object.toNat

/-- WRITE_CHANNEL of RUNTIME, or of no group (R83, R156). -/
theorem reqWriteChannel_of_no_group {q : Req} (h : 3 ≤ q.object.toNat) (s : State) :
    reqWriteChannel q s = (s, answer q .range) := by
  unfold reqWriteChannel
  split
  · rfl
  · split
    case h_4 => rfl
    all_goals omega

/-- SET_OVERRIDE of no override (R159). -/
theorem reqSetOverride_of_no_override {q : Req} (h : 3 ≤ q.object.toNat) (s : State) :
    reqSetOverride q s = (s, answer q .range) := by
  unfold reqSetOverride
  split
  case h_4 => rfl
  all_goals omega

/-- A code above 3 is no scope (R165). -/
theorem scopeOf_of_four_le {code : Byte} (h : 4 ≤ code.toNat) : scopeOf code = none := by
  unfold scopeOf
  split_ifs <;> simp_all

/-- RESET_NODE of no scope (R165). -/
theorem reqResetNode_of_no_scope {q : Req} (h : 4 ≤ q.object.toNat) (s : State) :
    reqResetNode q s = (s, answer q .range) := by
  simp only [reqResetNode, scopeOf_of_four_le h]

/-- An Object that no row stands for is refused with RANGE (R149). -/
theorem RequestCode.run_of_unfit {c : RequestCode} {q : Req} (h : c.unfit q.object) (s : State) :
    c.run q s = (s, answer q .range) := by
  rcases h with ⟨rfl, h⟩ | ⟨rfl, h⟩ | ⟨rfl, h⟩
  · exact reqWriteChannel_of_no_group h s
  · exact reqSetOverride_of_no_override h s
  · exact reqResetNode_of_no_scope h s

/-- The requests that may be broadcast (R98, R148). -/
theorem RequestCode.broadcastAllowed_iff (c : RequestCode) (object : Byte) :
    c.broadcastAllowed object = true ↔ c = .commitBank ∨ c = .freeze ∨ c = .thaw ∨ c = .clearInterlock
      ∨ c = .setOverride ∧ (object = 0x00 ∨ object = 0x01) := by
  cases c <;> simp [RequestCode.broadcastAllowed]

/-- A request with an Object that no row stands for may not be broadcast (R148). -/
theorem RequestCode.broadcastAllowed_of_unfit {c : RequestCode} {object : Byte} (h : c.unfit object) :
    c.broadcastAllowed object = false := by
  rw [Bool.eq_false_iff, Ne, RequestCode.broadcastAllowed_iff]
  rcases h with ⟨rfl, h⟩ | ⟨rfl, h⟩ | ⟨rfl, h⟩
  · simp
  · have hobject : object ≠ 0x00 ∧ object ≠ 0x01 := by
      constructor <;> rintro rfl <;> simp at h
    rintro (hc | hc | hc | hc | ⟨-, hzero | hone⟩)
    · cases hc
    · cases hc
    · cases hc
    · cases hc
    · exact hobject.1 hzero
    · exact hobject.2 hone
  · simp

/-- Settles O21: an unknown Code, then an unfit Object, each addressed and as a broadcast. -/
theorem unknownCodes : Obligations.UnknownCodes := by
  unfold Obligations.UnknownCodes
  intro code q s b slots hlocked hframe hbytes hlow hhigh arrived unknown unfit
  have hexec : exec (.cellLastByteArrival b) s = .next (arrived.agentCell 0x01 code q) := by
    rw [exec_requestCell hlocked hframe hbytes, if_pos (State.handsCell_cellTaken hlocked hlow hhigh)]
    rfl
  have hunfit : unfit → ∃ c : RequestCode, c.byte = code ∧ c.unfit q.object := by
    rintro (⟨rfl, h⟩ | ⟨rfl, h⟩ | ⟨rfl, h⟩)
    · exact ⟨.writeChannel, rfl, .inl ⟨rfl, h⟩⟩
    · exact ⟨.setOverride, rfl, .inr (.inl ⟨rfl, h⟩)⟩
    · exact ⟨.resetNode, rfl, .inr (.inr ⟨rfl, h⟩)⟩
  rw [hexec]
  refine ⟨fun hu hd => ?unknownReply, fun hu hd => ?unfitReply, ?broadcast⟩
  case unknownReply => rw [State.agentCell_of_unknown hu, State.agentUnknown, if_pos (by exact hd)]
  case unfitReply =>
    obtain ⟨c, rfl, hc⟩ := hunfit hu
    rw [State.agentCell_of_byte, State.agentRequest_of_position (by exact hd), State.execute,
      RequestCode.run_of_unfit hc]
  case broadcast =>
    rintro (hu | hu) hd
    · have hne : q.destination ≠ arrived.link.position := ne_position_of_broadcast hd hhigh
      rw [State.agentCell_of_unknown hu, State.agentUnknown, if_neg hne, if_pos hd]
      rfl
    · obtain ⟨c, rfl, hc⟩ := hunfit hu
      rw [State.agentCell_of_byte, State.agentRequest_of_bad_broadcast hd (by exact hhigh)
        (RequestCode.broadcastAllowed_of_unfit hc)]
      rfl

/-! ## The reply -/

/-- The bytes of a line replaced, where it holds as many or more (R14). -/
theorem replaceLast_of_le {line new : List Sym} (h : new.length ≤ line.length) :
    replaceLast line new = line.take (line.length - new.length) ++ new := by
  rw [replaceLast, Nat.sub_eq_zero_of_le h, List.drop_zero]

/-- Settles O22: the outcome of the request, and its reply in the place of the cell. -/
theorem replyTakesTheCell : Obligations.ReplyTakesTheCell := by
  unfold Obligations.ReplyTakesTheCell
  intro i c q s hrow ha hdelay
  obtain ⟨⟨edelay, ereceived, eframe, -⟩, hrefused⟩ := c.run_outcomeShape q s
  have hreply := replyBytes_length c.byte q (c.run q s).2
  refine ⟨_, (c.run q s).2, exec_addressed hrow ha rfl, ⟨?cell, ?check, ?delay, ?received, ?frame⟩, fun h => ?refused⟩
  case cell => rw [State.link_writeReply, LinkFramer.cell_setCell]; rfl
  case check => rw [State.link_writeReply, LinkFramer.sentCheck_setCell]; rfl
  case delay =>
    rw [State.link_writeReply, LinkFramer.delay_setCell, edelay, replaceLast_of_le (by simpa [hreply] using hdelay),
      List.length_map, hreply]
    rfl
  case received => rw [State.link_writeReply, LinkFramer.receivedCheck_setCell, ereceived]
  case frame => rw [State.link_writeReply, LinkFramer.frame_setCell, eframe]
  case refused =>
    have hrun : c.run q s = (s, answer q (c.run q s).2.status) := hrefused h
    generalize (c.run q s).2.status = status at hrun
    rw [hrun]
    exact ⟨rfl, rfl⟩

/-! ## Rows without effect, and broadcasts -/

/-- Settles O23: no cell is handed over, or it is another node's. -/
theorem requestsForOthersArePassed : Obligations.RequestsForOthersArePassed := by
  unfold Obligations.RequestsForOthersArePassed
  intro i c q s hrow h
  rw [exec_requestRow hrow, State.request]
  rcases h with h | ⟨hposition, hbroadcast⟩
  · rw [State.handsCell_of_not h, if_neg Bool.false_ne_true]
  · rw [State.agentRequest, if_neg hposition, if_neg hbroadcast, ite_self]

/-- What a request does and answers does not rest on its Destination. -/
theorem RequestCode.run_destination (c : RequestCode) (q : Req) (d : Byte) (s : State) :
    c.run { q with destination := d } s = c.run q s := by
  cases c <;> rfl

/-- A request that may be broadcast leaves the link alone: none of them reads counters. -/
theorem RequestCode.link_run_of_allowed {c : RequestCode} {q : Req} (h : c.broadcastAllowed q.object = true)
    (s : State) : (c.run q s).1.link = s.link := by
  rcases (c.broadcastAllowed_iff q.object).1 h with rfl | rfl | rfl | rfl | ⟨rfl, -⟩
  · show (reqCommitBank q s).1.link = s.link
    unfold reqCommitBank
    split
    · rfl
    · dsimp only
      split <;> rfl
  · rfl
  · rfl
  · show (reqClearInterlock q s).1.link = s.link
    unfold reqClearInterlock
    split_ifs <;> rfl
  · show (reqSetOverride q s).1.link = s.link
    unfold reqSetOverride
    split
    · rfl
    · rfl
    · split <;> rfl
    · rfl

/-- A reply writes the link alone. -/
theorem State.eq_writeReply_of_link {t : State} {l : LinkFramer} (h : t.link = l) (code : Byte) (q : Req) (r : Reply) :
    t = { t.writeReply code q r with link := l } := by
  subst h
  rfl

/-- Settles O24: the list of R148, and one run for the broadcast and the addressed request. -/
theorem broadcastsGiveNoReply : Obligations.BroadcastsGiveNoReply := by
  unfold Obligations.BroadcastsGiveNoReply
  rintro i c q s hrow ⟨hhanded, hd⟩ allowed
  have ⟨_, _, _, hposition⟩ := hhanded
  have hallowed : c.broadcastAllowed q.object = true ↔ allowed := c.broadcastAllowed_iff q.object
  rw [exec_requestRow hrow, State.request, if_pos (State.handsCell_of_cellHanded hhanded)]
  refine ⟨fun hbad => ?bad, fun hgood => ?good⟩
  case bad =>
    rw [State.agentRequest_of_bad_broadcast hd hposition (Bool.eq_false_iff.2 (mt hallowed.1 hbad))]
    rfl
  case good =>
    have hlink := RequestCode.link_run_of_allowed (hallowed.2 hgood) s
    refine ⟨_, congrArg _ (State.agentRequest_of_good_broadcast hd hposition (hallowed.2 hgood)), hlink, ?_⟩
    rintro j p hrow' rfl
    refine ⟨_, exec_addressed hrow' (q := { q with destination := s.link.position }) ⟨hhanded, rfl⟩ rfl, ?_⟩
    rw [c.run_destination q s.link.position s]
    exact State.eq_writeReply_of_link hlink _ _ _

end Sys2Proof.Machine
end

section
/-! PROOFS. The node reset (spec/07, section 7.7: R165 to R167): at which point of its frame a pending reset is applied
(O28), and what it does to each block by its scope (O29). -/

namespace Sys2Proof.Machine

/-! ## When a pending reset is applied -/

/-- The state with no reset pending. -/
def State.spared (s : State) : State :=
  { s with agent := { s.agent with resetScope := none } }

/-- The scope that is pending has no part in what a reset does. -/
theorem State.applyReset_spared (s : State) (scope : Scope) : s.spared.applyReset scope = s.applyReset scope := by
  cases scope <;> rfl

/-- Levels of the sense lines that the part has seen already change nothing. -/
theorem State.setPins_of_eq {s : State} {sns : Byte} (h : s.sense.pins = sns) : s.setPins sns = s := by
  subst h
  rfl

/-- A reset keeps the levels of the sense lines (R145). -/
@[simp] theorem State.pins_applyReset (s : State) (scope : Scope) :
    (s.applyReset scope).sense.pins = s.sense.pins := by
  obtain ⟨-, -, -, -, -, hsense, -⟩ := s.applyReset_blocks scope
  rw [hsense]
  cases scope <;> rfl

/-- The frame's end comes before its reset (R166). -/
theorem State.endFrame_of_pending {s : State} {scope : Scope} (h : s.agent.resetScope = some scope) :
    s.endFrame = s.spared.endFrame.applyReset scope := by
  rw [State.endFrame_of_reset h, State.endFrame_of_no_reset (s := s.spared) rfl, State.applyReset_spared]

theorem State.endChecked_of_pending {s : State} {scope : Scope} (h : s.agent.resetScope = some scope) (b : Byte) :
    s.endChecked b = (s.spared.endChecked b).applyReset scope := by
  by_cases hc : word16 s.link.checkByte b = s.link.receivedCheck
  · rw [State.endChecked_of_correct hc, State.endChecked_of_correct (s := s.spared) hc]
    exact State.endFrame_of_pending h
  · rw [State.endChecked_of_incorrect hc, State.endChecked_of_incorrect (s := s.spared) hc]
    exact State.endFrame_of_pending h

theorem State.truncate_of_pending {s : State} {scope : Scope} (h : s.agent.resetScope = some scope) :
    s.truncate = s.spared.truncate.applyReset scope := by
  rw [State.truncate_eq, State.truncate_eq, State.endFrame_of_pending (s := s.cutFrame) h]
  rfl

/-- An abort marker or an idle symbol truncates the frame, then the reset is applied (R17, R166). -/
theorem State.receiveEnd_of_pending {s : State} {place slots : Nat} {scope : Scope} (hs : s.link.state = .locked)
    (hf : s.link.frame = .good place slots) (h : s.agent.resetScope = some scope) (sym : Sym) :
    s.receiveEnd sym = (s.spared.receiveEnd sym).applyReset scope := by
  rw [State.receiveEnd_of_locked hs hf, State.receiveEnd_of_locked (s := s.spared) hs hf,
    State.truncate_of_pending (s := { s with link := s.link.put .abort }) h]
  rfl

/-- After the reset of a frame cut short no frame is in progress. -/
theorem State.endForMarker_applyReset_cutFrame (s : State) (scope : Scope) :
    (s.cutFrame.applyReset scope).endForMarker = s.cutFrame.applyReset scope := by
  have hbetween : (s.cutFrame.applyReset scope).link.frame = .between := by
    obtain ⟨hlink, -⟩ := s.cutFrame.applyReset_blocks scope
    rw [hlink]
    cases scope <;> rfl
  simp only [State.endForMarker, hbetween]

/-- Settles O28: the ends of a frame, each with the reset after it, and the marker that begins anew. -/
theorem pendingResetIsAppliedAtTheFrameEnd : Obligations.PendingResetIsAppliedAtTheFrameEnd := by
  unfold Obligations.PendingResetIsAppliedAtTheFrameEnd
  intro s b sns place slots scope hs hf hr spared resetAfter
  refine ⟨fun hplace => ⟨_, exec_frameCheckSecondByte b sns spared, ?check⟩, ⟨_, exec_abortMarker sns spared, ?abort⟩,
    ⟨_, exec_idle sns spared, ?idle⟩, ?marker⟩
  case check =>
    rw [exec_frameCheckSecondByte, State.receiveByte_of_locked (s := s.setPins sns) hs hf,
      State.receiveByte_of_locked (s := spared.setPins sns) hs hf, State.flightByte_of_end _ b (by omega),
      State.flightByte_of_end _ b (by omega), State.endChecked_of_pending (s := s.setPins sns) hr]
    rfl
  case abort =>
    rw [exec_abortMarker, State.receiveEnd_of_pending (s := s.setPins sns) hs hf hr]
    rfl
  case idle =>
    rw [exec_idle, State.receiveEnd_of_pending (s := s.setPins sns) hs hf hr]
    rfl
  case marker =>
    let cut := (s.setPins sns).spared.cutFrame
    have hpins : (cut.applyReset scope).setPins sns = cut.applyReset scope :=
      State.setPins_of_eq (State.pins_applyReset cut scope)
    have htruncate : (s.setPins sns).truncate = cut.applyReset scope := by
      rw [State.truncate_of_reset (s := s.setPins sns) hr]
      exact ((s.setPins sns).cutFrame.applyReset_spared scope).symm
    rw [exec_frameStartMarker, State.endForMarker_of_inFlight (s := s.setPins sns) (LinkFramer.inFlight_of_good hs hf),
      htruncate]
    show _ = exec (.frameStartMarkerArrival sns) (cut.applyReset scope)
    rw [exec_frameStartMarker, hpins, State.endForMarker_applyReset_cutFrame]

/-! ## What each block takes from a reset -/

theorem Scope.eq_of_not_outputs {scope : Scope} (h : ¬ (scope = .outputs ∨ scope = .node)) :
    scope = .tables ∨ scope = .events := by
  cases scope <;> simp_all

theorem Scope.eq_of_not_tables {scope : Scope} (h : ¬ (scope = .tables ∨ scope = .node)) :
    scope = .outputs ∨ scope = .events := by
  cases scope <;> simp_all

/-- The Link Framer's part of a reset (R23, R26, R28). -/
theorem LinkFramer.nodeReset_eq (l : LinkFramer) (scope : Scope) :
    l.nodeReset scope = match scope with
      | .outputs => l
      | .tables => l
      | .events => l.clearCounters
      | .node => { l.clearCounters with
          heldBlackout := false, reference := none, staleCount := 0, staleStage := 0, staleCause := false } := by
  cases scope <;> rfl

theorem LinkFramer.frameClock_nodeReset (l : LinkFramer) (scope : Scope) :
    (l.nodeReset scope).frameClock = l.frameClock := by
  cases scope <;> rfl

/-- TABLES and NODE empty the Map Store (R53). -/
theorem MapStore.nodeReset_of_tables {scope : Scope} (h : scope = .tables ∨ scope = .node) (m : MapStore) :
    m.nodeReset scope = .powerOn := by
  rcases h with rfl | rfl <;> rfl

theorem MapStore.nodeReset_of_not_tables {scope : Scope} (h : ¬ (scope = .tables ∨ scope = .node)) (m : MapStore) :
    m.nodeReset scope = m := by
  rcases Scope.eq_of_not_tables h with rfl | rfl <;> rfl

/-- OUTPUTS and NODE free both staging buffers (R78). -/
theorem SlotEngine.nodeReset_of_outputs {scope : Scope} (h : scope = .outputs ∨ scope = .node) (e : SlotEngine) :
    e.nodeReset scope = e.bothFree := by
  rcases h with rfl | rfl <;> rfl

theorem SlotEngine.nodeReset_of_not_outputs {scope : Scope} (h : ¬ (scope = .outputs ∨ scope = .node))
    (e : SlotEngine) : e.nodeReset scope = e := by
  rcases Scope.eq_of_not_outputs h with rfl | rfl <;> rfl

/-- OUTPUTS and NODE restore the channels, the parks, the overrides and the freeze (R102). -/
theorem LevelEngine.nodeReset_of_outputs {scope : Scope} (h : scope = .outputs ∨ scope = .node) (l : LevelEngine) :
    l.nodeReset scope = { l.resetOutputs with curves := (l.nodeReset scope).curves } := by
  rcases h with rfl | rfl <;> rfl

theorem LevelEngine.nodeReset_of_not_outputs {scope : Scope} (h : ¬ (scope = .outputs ∨ scope = .node))
    (l : LevelEngine) : l.nodeReset scope = { l with curves := (l.nodeReset scope).curves } := by
  rcases Scope.eq_of_not_outputs h with rfl | rfl <;> rfl

/-- TABLES and NODE restore the default points of curves 1 to 3 (R87). -/
theorem LevelEngine.curves_nodeReset_of_tables {scope : Scope} (h : scope = .tables ∨ scope = .node)
    (l : LevelEngine) : (l.nodeReset scope).curves = defaultCurves := by
  rcases h with rfl | rfl <;> rfl

theorem LevelEngine.curves_nodeReset_of_not_tables {scope : Scope} (h : ¬ (scope = .tables ∨ scope = .node))
    (l : LevelEngine) : (l.nodeReset scope).curves = l.curves := by
  rcases Scope.eq_of_not_tables h with rfl | rfl <;> rfl

/-- No reset takes the fallback state or blackout in force (R102). -/
theorem LevelEngine.nodeReset_fallback (l : LevelEngine) (scope : Scope) :
    (l.nodeReset scope).fallback = l.fallback ∧ (l.nodeReset scope).blackoutInForce = l.blackoutInForce := by
  cases scope <;> exact ⟨rfl, rfl⟩

/-- OUTPUTS and NODE bring the generators to their power-on items (R124). -/
theorem generatorsReset_of_outputs {scope : Scope} (h : scope = .outputs ∨ scope = .node)
    (gens : Vector Generator 16) : generatorsReset gens scope = Vector.replicate 16 .powerOn := by
  rcases h with rfl | rfl <;> rfl

theorem generatorsReset_of_not_outputs {scope : Scope} (h : ¬ (scope = .outputs ∨ scope = .node))
    (gens : Vector Generator 16) : generatorsReset gens scope = gens := by
  rcases Scope.eq_of_not_outputs h with rfl | rfl <;> rfl

/-- After OUTPUTS and NODE every output line is low (R105, R124). -/
theorem State.outHigh_applyReset {scope : Scope} (h : scope = .outputs ∨ scope = .node) (s : State) (i : Fin 16) :
    (s.applyReset scope).outHigh i = false := by
  obtain ⟨-, -, -, hlevel, hgen, -⟩ := s.applyReset_blocks scope
  rw [State.outHigh, hlevel, hgen, generatorsReset_of_outputs h, LevelEngine.nodeReset_of_outputs h]
  simp [LevelEngine.resetOutputs, Generator.powerOn, Channel.default]

/-! ## What the Agent takes from a reset -/

/-- Where the reset places no record, the Agent is its own part of the reset (R167). -/
theorem State.agent_applyReset_of_none {s : State} {scope : Scope} (h : s.raisedByReset scope = none) :
    (s.applyReset scope).agent = { s.agent.nodeReset scope with resetScope := none } := by
  rw [State.applyReset_eq, h]
  rfl

/-- Where it places a record, the Agent takes that event after its own part of the reset (R53, R167). -/
theorem State.agent_applyReset_of_some {s : State} {scope : Scope} {e : Event} (h : s.raisedByReset scope = some e) :
    (s.applyReset scope).agent
      = Agent.take { s.agent.nodeReset scope with resetScope := none } e (s.link.frameClock.setWidth 16) := by
  have hclock := s.link.frameClock_nodeReset scope
  rw [State.applyReset_eq, h]
  show Agent.take _ e ((s.link.nodeReset scope).frameClock.setWidth 16) = _
  rw [hclock]
  rfl

/-- An event is taken alike whatever reset is pending. -/
theorem Agent.take_with_resetScope (a : Agent) (r : Option Scope) (e : Event) (stamp : BitVec 16) :
    Agent.take { a with resetScope := r } e stamp = { a.take e stamp with resetScope := r } := by
  unfold Agent.take
  dsimp only
  split_ifs <;> rfl

/-- With every kind admitted, the first event of an empty queue is its one record (R171, R172). -/
theorem Agent.take_of_cleared {a : Agent} (hmask : a.mask = 0xFFF) (hqueue : a.queue = []) (e : Event)
    (stamp : BitVec 16) :
    a.take e stamp = { a with flags := a.flags ||| e.kind.flag, queue := [e.record stamp] } := by
  have hadmit : a.mask.getLsbD e.kind.code = true := by
    rw [hmask]
    cases e.kind <;> decide
  rw [Agent.take, if_pos hadmit, hqueue, if_pos (by decide)]
  rfl

/-- The Detail of NODE_START at a reset: cause RESET, then the scope (R186). -/
theorem Event.detail_nodeStart (scope : Scope) :
    (Event.nodeStart (some scope)).detail = 0x0100 ||| scope.code.setWidth 16 := by
  cases scope <;> rfl

/-- EVENTS and NODE leave NODE_START alone in the queue and the flags (R167). -/
theorem State.agent_applyReset_of_events {scope : Scope} (h : scope = .events ∨ scope = .node) (s : State) :
    (s.applyReset scope).agent.mask = 0xFFF ∧ (s.applyReset scope).agent.flags = 1
      ∧ (s.applyReset scope).agent.queue
        = [⟨.nodeStart, .none, s.link.frameClock.setWidth 16, 0x0100 ||| scope.code.setWidth 16⟩] := by
  have hflag : (0 : BitVec 14) ||| EventKind.nodeStart.flag = 1 := by decide
  rw [← Event.detail_nodeStart]
  rcases h with rfl | rfl <;>
    rw [State.agent_applyReset_of_some rfl, Agent.take_of_cleared rfl rfl] <;> exact ⟨rfl, hflag, rfl⟩

/-- Settles O29: each block's part of the reset, and the record that the Agent takes with it. -/
theorem resetTouchesWhatItsScopeNames : Obligations.ResetTouchesWhatItsScopeNames := by
  unfold Obligations.ResetTouchesWhatItsScopeNames
  intro s scope t outputs tables events cleared
  obtain ⟨hlink, hmap, hslot, hlevel, hgen, hsense, htime, hparams, -, hpending, hchoices, hqueue⟩ :=
    s.applyReset_blocks scope
  obtain ⟨hfallback, hforce⟩ := s.level.nodeReset_fallback scope
  refine ⟨hlink.trans (s.link.nodeReset_eq scope),
    fun h => hmap.trans (MapStore.nodeReset_of_tables h s.map),
    fun h => hmap.trans (MapStore.nodeReset_of_not_tables h s.map),
    fun h => hslot.trans (SlotEngine.nodeReset_of_outputs h s.slot),
    fun h => hslot.trans (SlotEngine.nodeReset_of_not_outputs h s.slot),
    fun h => ?outputs,
    fun h => (congrArg LevelEngine.curves hlevel).trans (LevelEngine.curves_nodeReset_of_tables h s.level),
    fun h => (congrArg LevelEngine.curves hlevel).trans (LevelEngine.curves_nodeReset_of_not_tables h s.level),
    fun h => ?kept,
    (congrArg LevelEngine.fallback hlevel).trans hfallback,
    (congrArg LevelEngine.blackoutInForce hlevel).trans hforce,
    htime, hchoices, hqueue, ?node, fun h => ?notNode,
    fun h => State.agent_applyReset_of_events h s, fun hevents hrecord => ?agentKept, ?tables, hpending⟩
  case outputs =>
    have hrestored : t.level = _ := hlevel.trans (LevelEngine.nodeReset_of_outputs h s.level)
    rw [hrestored]
    exact ⟨rfl, rfl, rfl, rfl, rfl, rfl, hgen.trans (generatorsReset_of_outputs h s.generators),
      State.outHigh_applyReset h s⟩
  case kept =>
    refine ⟨hgen.trans (generatorsReset_of_not_outputs h s.generators), ?_⟩
    rw [hlevel]
    exact LevelEngine.nodeReset_of_not_outputs h s.level
  case node =>
    rintro rfl
    exact ⟨hsense, hparams⟩
  case notNode =>
    refine ⟨hsense.trans (SenseUnit.nodeReset_of_ne h s.sense), ?_⟩
    rw [State.params_applyReset, if_neg h]
  case agentKept =>
    cases scope with
    | outputs => exact State.agent_applyReset_of_none rfl
    | tables => exact State.agent_applyReset_of_none (hrecord.resolve_left nofun)
    | events => exact absurd (.inl rfl) hevents
    | node => exact absurd (.inr rfl) hevents
  case tables =>
    rintro rfl e howed
    exact (State.agent_applyReset_of_some (scope := .tables) howed).trans (s.agent.take_with_resetScope none e _)

end Sys2Proof.Machine
end

section
/-! PROOFS. READ_IDENTITY, READ_STATUS, the node parameters, READ_CHANNEL, and the events with their flags (spec/07,
sections 7.2, 7.4 and 7.6: R152 to R154, R156, R161 to R163; O50, O51, O52, O54, O59). -/

namespace Sys2Proof.Machine

/-- An addressed row whose request is run leaves its state and its reply (R147). -/
theorem exec_of_run {i : Instr} {c : RequestCode} {p q : Req} {s t : State} {r : Reply} (ha : s.addressed q)
    (hrow : requestRow i = some (c, p)) (hp : p.destination = q.destination) (hrun : c.run p s = (t, r)) :
    exec i s = .next (t.writeReply c.byte p r) := by
  rw [exec_addressed hrow ha hp, hrun]

/-! ## Fields of a byte -/

/-- Fields side by side as a number. -/
theorem toNat_append_eq_add {m n : Nat} (x : BitVec m) (y : BitVec n) :
    (x ++ y).toNat = x.toNat * 2 ^ n + y.toNat := by
  rw [BitVec.toNat_append, ← Nat.shiftLeft_add_eq_or_of_lt y.isLt, Nat.shiftLeft_eq]

theorem bit_toNat (b : Bool) : (bit b).toNat = b.toNat := by
  cases b <;> rfl

theorem getLsbD_bit (b : Bool) (n : Nat) : (bit b).getLsbD n = (decide (n = 0) && b) := by
  rw [bit, BitVec.getLsbD_ofBool]

/-! ## READ_IDENTITY -/

/-- Settles O50: the reply is a constant. -/
theorem identityIsAnswered : Obligations.IdentityIsAnswered := by
  unfold Obligations.IdentityIsAnswered
  intro q s ha
  exact ⟨_, exec_of_run (c := .readIdentity) ha rfl rfl rfl, rfl, rfl, rfl, rfl⟩

/-! ## READ_STATUS -/

section
variable {q : Req} {s : State}

theorem reqReadStatus_link (h : q.object = 0) : reqReadStatus q s = (s, answerArgs q s.linkPage) := by
  simp only [reqReadStatus, h]
  rfl

theorem reqReadStatus_map (h : q.object = 1) : reqReadStatus q s = (s, answerArgs q s.mapPage) := by
  simp only [reqReadStatus, h]
  rfl

theorem reqReadStatus_level (h : q.object = 2) : reqReadStatus q s = (s, answerArgs q s.levelPage) := by
  simp only [reqReadStatus, h]
  rfl

theorem reqReadStatus_park (h : q.object = 3) {channel : Fin 16} (hindex : q.index.toNat = channel.val) :
    reqReadStatus q s = (s, answerArgs q s.level.parks[channel].page) := by
  simp only [reqReadStatus, h, channelOf_of_eq hindex]
  rfl

/-- The PARK page has the channels 0 to 15 alone (R153). -/
theorem reqReadStatus_park_of_le (h : q.object = 3) (hindex : 16 ≤ q.index.toNat) :
    reqReadStatus q s = (s, answer q .range) := by
  simp only [reqReadStatus, h, channelOf_of_le hindex]
  rfl

/-- An Object above 3 names no page (R153). -/
theorem reqReadStatus_of_four_le (h : 4 ≤ q.object.toNat) : reqReadStatus q s = (s, answer q .range) := by
  unfold reqReadStatus
  split
  case h_5 => rfl
  all_goals omega

end

/-- Two bits of 1, two flags, two bits of a stage, a flag and a 0 are each found at their places. -/
theorem linkFields_read (passive stale known : Bool) (stage : Fin 3) :
    let a : Byte :=
      (3 : BitVec 2) ++ bit passive ++ bit stale ++ BitVec.ofNat 2 stage.val ++ bit known ++ (0 : BitVec 1)
    a.toNat / 64 = 3 ∧ a.getLsbD 5 = passive ∧ a.getLsbD 4 = stale ∧ a.toNat / 4 % 4 = stage.val
      ∧ a.getLsbD 1 = known := by
  revert passive stale known stage
  decide

/-- The fields of A1 on the LINK page (R184). -/
theorem State.linkPage_a1 {s : State} (h : s.link.state = .locked) :
    s.linkPage.a1.toNat / 64 = 3 ∧ s.linkPage.a1.getLsbD 5 = s.agent.params.passive
      ∧ s.linkPage.a1.getLsbD 4 = s.link.staleCause ∧ s.linkPage.a1.toNat / 4 % 4 = s.link.staleStage.val
      ∧ s.linkPage.a1.getLsbD 1 = s.link.reference.isSome := by
  unfold State.linkPage
  rw [h]
  exact linkFields_read _ _ _ _

/-- Two flags, a code of two bits, a flag and three bits of 0 are each found at their places. -/
theorem mapFields_read (active misaligned target : Bool) (code : BitVec 2) :
    let a : Byte := bit active ++ bit misaligned ++ code ++ bit target ++ (0 : BitVec 3)
    a.getLsbD 7 = active ∧ a.getLsbD 6 = misaligned ∧ a.toNat / 16 % 4 = code.toNat ∧ a.getLsbD 3 = target := by
  revert active misaligned target code
  decide

/-- The fields of A1 on the MAP page (R55, R184). -/
theorem State.mapPage_a1 (s : State) :
    s.mapPage.a1.getLsbD 7 = (s.map.active == .b) ∧ s.mapPage.a1.getLsbD 6 = s.map.misaligned
      ∧ s.mapPage.a1.toNat / 16 % 4 = (opCode s.map.op).toNat
      ∧ s.mapPage.a1.getLsbD 3 = s.map.op.any fun op => op.target == .b :=
  mapFields_read _ _ _ _

theorem BankName.beq_b_iff (name : BankName) : (name == .b) = true ↔ name = .b := by
  cases name <;> decide

/-- The operation and its target on the MAP page (R184). -/
theorem State.mapPage_op {s : State} {op : TableOp} (h : s.map.op = some op) :
    (op.kind = .copy → s.mapPage.a1.toNat / 16 % 4 = 1) ∧ (op.kind = .commit → s.mapPage.a1.toNat / 16 % 4 = 2)
      ∧ (s.mapPage.a1.getLsbD 3 = true ↔ op.target = .b) := by
  obtain ⟨-, -, hcode, htarget⟩ := s.mapPage_a1
  rw [hcode, htarget, h, opCode]
  refine ⟨fun hkind => ?_, fun hkind => ?_, op.target.beq_b_iff⟩
  · rw [hkind]
    rfl
  · rw [hkind]
    rfl

/-- The bits of A1 and A2 on the LEVEL page, in LOCKED (R184). -/
theorem State.levelPage_bits {s : State} (h : s.link.state = .locked) :
    s.levelPage.a1.getLsbD 7 = s.level.fallback ∧ s.levelPage.a1.getLsbD 6 = false
      ∧ s.levelPage.a1.getLsbD 5 = s.link.staleCause ∧ s.levelPage.a1.getLsbD 4 = s.level.blackout
      ∧ s.levelPage.a1.getLsbD 3 = s.link.heldBlackout ∧ s.levelPage.a1.getLsbD 2 = s.sense.active
      ∧ s.levelPage.a1.getLsbD 1 = s.sense.armed ∧ s.levelPage.a1.getLsbD 0 = s.level.blackoutInForce
      ∧ s.levelPage.a2.getLsbD 7 = s.level.testFull ∧ s.levelPage.a2.getLsbD 6 = s.level.freezeRequest
      ∧ s.levelPage.a2.getLsbD 5 = s.level.frozen := by
  have hlink : s.link.fallbackCause = false := by
    rw [LinkFramer.fallbackCause, h]
    rfl
  simp only [State.levelPage, hlink, BitVec.getLsbD_append, getLsbD_bit]
  simp

/-- Settles O51: the page by its Object, and the fields of each page. -/
theorem statusPages : Obligations.StatusPages := by
  unfold Obligations.StatusPages
  intro q s ha page refused
  have ⟨⟨hlocked, _⟩, _⟩ := ha
  have hpage : ∀ {a : Args}, reqReadStatus q s = (s, answerArgs q a) → page a := fun hrun =>
    exec_of_run (c := .readStatus) ha rfl rfl hrun
  have hrefused : reqReadStatus q s = (s, answer q .range) → refused := fun hrun =>
    exec_of_run_answer (c := .readStatus) ha rfl rfl hrun
  refine ⟨fun h => ⟨_, hpage (reqReadStatus_link h), ?link⟩, fun h => ⟨_, hpage (reqReadStatus_map h), ?map⟩,
    fun h => ⟨_, hpage (reqReadStatus_level h), ?level⟩,
    fun channel h hindex => ⟨_, hpage (reqReadStatus_park h hindex), ?park⟩,
    fun h hindex => hrefused (reqReadStatus_park_of_le h hindex), fun h => hrefused (reqReadStatus_of_four_le h)⟩
  case link =>
    obtain ⟨hstate, hpassive, hcause, hstage, hknown⟩ := State.linkPage_a1 hlocked
    exact ⟨hstate, hpassive, hcause, hstage, hknown, rfl, BitVec.toNat_ofNat _ _, rfl, BitVec.toNat_ofNat _ _, rfl⟩
  case map =>
    obtain ⟨hactive, hmisaligned, hcode, -⟩ := s.mapPage_a1
    refine ⟨?_, hmisaligned, fun hidle => ?_, fun op hop => State.mapPage_op hop, rfl, BitVec.toNat_ofNat _ _, rfl,
      BitVec.toNat_ofNat _ _, rfl⟩
    · rw [hactive]
      exact s.map.active.beq_b_iff
    · rw [hcode, hidle]
      rfl
  case level =>
    obtain ⟨hfallback, hcause, hstale, hblackout, hheld, hactive, harmed, hforce, htest, hrequest, hfrozen⟩ :=
      State.levelPage_bits hlocked
    exact ⟨hfallback, hcause, hstale, hblackout, hheld, hactive, harmed, hforce, htest, hrequest, hfrozen,
      BitVec.toNat_ofNat _ _, rfl, rfl, rfl⟩
  case park => exact ⟨flagByte_toNat _, wordAt_hiByte_loByte _, rfl, rfl, rfl⟩

/-! ## SET_NODE and READ_NODE -/

section
variable {q : Req} {s : State}

theorem reqSetNode_of_none (h : s.agent.params.write q.object q.args.a1 = none) :
    reqSetNode q s = (s, answer q .range) := by
  simp only [reqSetNode, h]

theorem reqSetNode_of_some {params : NodeParams} (h : s.agent.params.write q.object q.args.a1 = some params) :
    reqSetNode q s = ({ s with agent := { s.agent with params := params } }, answer q .ok) := by
  simp only [reqSetNode, h]

theorem reqReadNode_of_none (h : s.agent.params.read q.object = none) : reqReadNode q s = (s, answer q .range) := by
  simp only [reqReadNode, h]

theorem reqReadNode_of_some {value : Byte} (h : s.agent.params.read q.object = some value) :
    reqReadNode q s = (s, answerArgs q ⟨value, 0, 0, 0, 0, 0⟩) := by
  simp only [reqReadNode, h]
  rfl

end

/-- A code above 2 is no loss policy (R154). -/
theorem lossPolicyOf_of_three_le {code : Byte} (h : 3 ≤ code.toNat) : lossPolicyOf code = none := by
  unfold lossPolicyOf
  split_ifs <;> simp_all

section
variable {p : NodeParams} {value : Byte}

theorem NodeParams.write_lossPolicy :
    p.write 0 value = (lossPolicyOf value).map fun policy => { p with lossPolicy := policy } := by
  rfl

/-- Stale Warn is at most Stale Limit, unless that is 0 (R26). -/
theorem NodeParams.write_staleWarn_of_invalid (hlimit : p.staleLimit ≠ 0) (h : p.staleLimit.toNat < value.toNat) :
    p.write 2 value = none :=
  if_pos ⟨hlimit, h⟩

theorem NodeParams.write_staleWarn_of_valid (h : p.staleLimit = 0 ∨ value.toNat ≤ p.staleLimit.toNat) :
    p.write 2 value = some { p with staleWarn := value } := by
  refine if_neg ?_
  rintro ⟨hlimit, hlt⟩
  exact Nat.not_le.2 hlt (h.resolve_left hlimit)

/-- Stale Limit is at least Stale Warn (R26). -/
theorem NodeParams.write_staleLimit_of_invalid (h : value.toNat < p.staleWarn.toNat) : p.write 3 value = none :=
  if_pos h

theorem NodeParams.write_staleLimit_of_valid (h : p.staleWarn.toNat ≤ value.toNat) :
    p.write 3 value = some { p with staleLimit := value } :=
  if_neg (Nat.not_lt.2 h)

theorem NodeParams.write_mode : p.write 4 value = (flagOf value).map fun passive => { p with passive := passive } := by
  rfl

/-- An Object above 4 names no parameter (R154). -/
theorem NodeParams.write_of_five_le {object : Byte} (h : 5 ≤ object.toNat) : p.write object value = none := by
  unfold NodeParams.write
  split
  case h_6 => rfl
  all_goals omega

theorem NodeParams.read_of_five_le {object : Byte} (h : 5 ≤ object.toNat) : p.read object = none := by
  unfold NodeParams.read
  split
  case h_6 => rfl
  all_goals omega

end

/-- Settles O52: for each Object what is written and what is read. -/
theorem nodeParameters : Obligations.NodeParameters := by
  unfold Obligations.NodeParameters
  intro q s ha p v refused stored reads
  have hrefused : p.write q.object v = none → refused := fun h =>
    exec_of_run_answer (c := .setNode) ha rfl rfl (reqSetNode_of_none h)
  have hstored : ∀ {params : NodeParams}, p.write q.object v = some params → stored params := fun h =>
    exec_of_run_answer (c := .setNode) ha rfl rfl (reqSetNode_of_some h)
  have hreads : ∀ {value : Byte}, p.read q.object = some value → reads value := fun h =>
    exec_of_run (c := .readNode) ha rfl rfl (reqReadNode_of_some h)
  refine ⟨fun h => ?lossPolicy, fun h => ?frameTimeout, fun h => ?staleWarn, fun h => ?staleLimit, fun h => ?mode,
    fun h => ⟨hrefused (NodeParams.write_of_five_le h), ?none⟩⟩
  case none => exact exec_of_run_answer (c := .readNode) ha rfl rfl (reqReadNode_of_none (NodeParams.read_of_five_le h))
  all_goals rw [h] at hrefused hstored hreads
  case lossPolicy =>
    rw [NodeParams.write_lossPolicy] at hrefused hstored
    refine ⟨fun hv => hstored ?_, fun hv => hstored ?_, fun hv => hstored ?_, fun hv => hrefused ?_,
      fun hp => hreads ?_, fun hp => hreads ?_, fun hp => hreads ?_⟩
    · rw [hv]; rfl
    · rw [hv]; rfl
    · rw [hv]; rfl
    · rw [lossPolicyOf_of_three_le hv]; rfl
    all_goals rw [NodeParams.read, hp]; rfl
  case frameTimeout => exact ⟨hstored rfl, hreads rfl⟩
  case staleWarn =>
    exact ⟨fun ⟨hlimit, hlt⟩ => hrefused (NodeParams.write_staleWarn_of_invalid hlimit hlt),
      fun hv => hstored (NodeParams.write_staleWarn_of_valid hv), hreads rfl⟩
  case staleLimit =>
    exact ⟨fun hv => hrefused (NodeParams.write_staleLimit_of_invalid hv),
      fun hv => hstored (NodeParams.write_staleLimit_of_valid hv), hreads rfl⟩
  case mode =>
    rw [NodeParams.write_mode] at hrefused hstored
    refine ⟨fun hv => hstored ?_, fun hv => hstored ?_, fun hv => hrefused ?_, fun hp => hreads ?_,
      fun hp => hreads ?_⟩
    · rw [hv]; rfl
    · rw [hv]; rfl
    · rw [flagOf_of_two_le hv]; rfl
    all_goals rw [NodeParams.read, hp]; rfl

/-! ## READ_CHANNEL -/

section
variable {q : Req} {s : State} {channel : Fin 16}

/-- A channel above 15 is refused, whatever the group (R156). -/
theorem reqReadChannel_of_le (h : 16 ≤ q.index.toNat) : reqReadChannel q s = (s, answer q .range) := by
  simp only [reqReadChannel, channelOf_of_le h]

/-- An Object above 3 names no group (R156). -/
theorem reqReadChannel_of_no_group (h : 4 ≤ q.object.toNat) : reqReadChannel q s = (s, answer q .range) := by
  unfold reqReadChannel
  split
  · rfl
  · dsimp only
    split
    case h_5 => rfl
    all_goals omega

theorem reqReadChannel_output (h : q.index.toNat = channel.val) (hobject : q.object = 0) :
    reqReadChannel q s = (s, answerArgs q s.level.channels[channel].outputArgs) := by
  simp only [reqReadChannel, channelOf_of_eq h, hobject]
  rfl

theorem reqReadChannel_level (h : q.index.toNat = channel.val) (hobject : q.object = 1) :
    reqReadChannel q s = (s, answerArgs q s.level.channels[channel].levelArgs) := by
  simp only [reqReadChannel, channelOf_of_eq h, hobject]
  rfl

theorem reqReadChannel_trigger (h : q.index.toNat = channel.val) (hobject : q.object = 2) :
    reqReadChannel q s = (s, answerArgs q s.level.channels[channel].triggerArgs) := by
  simp only [reqReadChannel, channelOf_of_eq h, hobject]
  rfl

/-- RUNTIME answers the target source as Object and the demanded level as Index (R184). -/
theorem reqReadChannel_runtime (h : q.index.toNat = channel.val) (hobject : q.object = 3) :
    reqReadChannel q s = (s, ⟨.ok, s.level.channels[channel].targetSource.code, s.level.channels[channel].demanded,
      s.level.channels[channel].runtimeArgs, 0⟩) := by
  simp only [reqReadChannel, channelOf_of_eq h, hobject]
  rfl

end

/-- A1 of the OUTPUT group: enable, polarity, Clock Divider and mode (R184). -/
theorem Channel.outputArgs_a1 (c : Channel) :
    c.outputArgs.a1.toNat
      = 128 * c.enabled.toNat + 64 * c.inverted.toNat + 16 * c.divider.code.toNat + c.mode.code.toNat := by
  show (bit c.enabled ++ bit c.inverted ++ c.divider.code ++ c.mode.code).toNat = _
  simp only [toNat_append_eq_add, bit_toNat]
  omega

/-- Settles O54: the group by its Object, and its fields. -/
theorem channelGroupsAreRead : Obligations.ChannelGroupsAreRead := by
  unfold Obligations.ChannelGroupsAreRead
  intro q s ha refused reads
  have hrefused : reqReadChannel q s = (s, answer q .range) → refused := fun hrun =>
    exec_of_run_answer (c := .readChannel) ha rfl rfl hrun
  have hreads : ∀ {object : Byte} {index : BitVec 16} {a : Args},
      reqReadChannel q s = (s, ⟨.ok, object, index, a, 0⟩) → reads object index a := fun hrun =>
    exec_of_run (c := .readChannel) ha rfl rfl hrun
  refine ⟨fun h => hrefused (reqReadChannel_of_le h), fun h => hrefused (reqReadChannel_of_no_group h),
    fun channel h => ?_⟩
  intro c
  refine ⟨fun hobject => ⟨_, hreads (reqReadChannel_output h hobject), ?output⟩,
    fun hobject => ⟨_, hreads (reqReadChannel_level h hobject), ?level⟩,
    fun hobject => ⟨_, hreads (reqReadChannel_trigger h hobject), ?trigger⟩,
    fun hobject => ⟨_, _, hreads (reqReadChannel_runtime h hobject), ?runtime⟩⟩
  case output => exact ⟨c.outputArgs_a1, wordAt_hiByte_loByte _, wordAt_hiByte_loByte _, rfl⟩
  case level =>
    have hcurve : (BitVec.ofNat 8 c.curve.val).toNat = c.curve.val := by
      rw [BitVec.toNat_ofNat]
      omega
    exact ⟨hcurve, wordAt_hiByte_loByte _, wordAt_hiByte_loByte _, flagByte_toNat _⟩
  case trigger => exact ⟨wordAt_hiByte_loByte _, wordAt_hiByte_loByte _, rfl, flagByte_toNat _⟩
  case runtime =>
    refine ⟨fun hsource => ?_, fun hsource => ?_, fun hsource => ?_, wordAt_hiByte_loByte _, wordAt_hiByte_loByte _,
      wordAt_hiByte_loByte _⟩
    all_goals exact congrArg TargetSource.code hsource

/-! ## FETCH_EVENT, READ_FLAGS, CLEAR_FLAGS and SET_REPORT_MASK -/

section
variable {q : Req} {s : State}

/-- An empty queue answers EMPTY, with Object as received (R161; log 13). -/
theorem reqFetchEvent_of_empty (h : s.agent.queue = []) :
    reqFetchEvent q s = (s, ⟨.empty, q.object, 0, ⟨0, 0, 0, 0, 0, 0⟩, 0⟩) := by
  simp only [reqFetchEvent, h]
  rfl

/-- The oldest record leaves the queue (R161). -/
theorem reqFetchEvent_of_cons {r : EventRecord} {rest : List EventRecord} (h : s.agent.queue = r :: rest) :
    reqFetchEvent q s = ({ s with agent := { s.agent with queue := rest } },
      ⟨.ok, BitVec.ofNat 8 r.kind.code, BitVec.ofNat 16 rest.length,
        ⟨r.subject.byte, hiByte r.stamp, loByte r.stamp, hiByte r.detail, loByte r.detail, 0⟩, 0⟩) := by
  simp only [reqFetchEvent, h]

theorem reqClearFlags_eq :
    reqClearFlags q s = ({ s with agent := { s.agent with
        flags := s.agent.flags &&& ~~~(wordAt q.args.a1 q.args.a2).setWidth 14 } },
      answerArgs q s.agent.flagArgs) := by
  simp only [reqClearFlags, word16_eq_wordAt]

theorem reqSetReportMask_eq :
    reqSetReportMask q s = ({ s with agent := { s.agent with
        mask := (wordAt q.args.a1 q.args.a2).setWidth 12 } }, answer q .ok) := by
  simp only [reqSetReportMask, word16_eq_wordAt]

end

/-- A narrower word is read back from its two bytes (R184). -/
theorem setWidth_wordAt {w : Nat} (hw : w ≤ 16) (x : BitVec w) :
    (wordAt (hiByte (x.setWidth 16)) (loByte (x.setWidth 16))).setWidth w = x := by
  rw [wordAt_hiByte_loByte, BitVec.setWidth_setWidth_of_le x hw, BitVec.setWidth_eq]

/-- Settles O59: the queue decides FETCH_EVENT; flags and mask are answered as they stood. -/
theorem eventsAndFlagsAreFetched : Obligations.EventsAndFlagsAreFetched := by
  unfold Obligations.EventsAndFlagsAreFetched
  intro q s ha
  refine ⟨fun h => exec_of_run (c := .fetchEvent) ha rfl rfl (reqFetchEvent_of_empty h),
    fun r rest h => ⟨_, exec_of_run (c := .fetchEvent) ha rfl rfl (reqFetchEvent_of_cons h), rfl,
      wordAt_hiByte_loByte _, wordAt_hiByte_loByte _, rfl⟩,
    ⟨s.agent.flagArgs, exec_of_run (c := .readFlags) ha rfl rfl rfl,
      exec_of_run (c := .clearFlags) ha rfl rfl reqClearFlags_eq, setWidth_wordAt (by decide) _,
      setWidth_wordAt (by decide) _, rfl, rfl⟩,
    exec_of_run_answer (c := .setReportMask) ha rfl rfl reqSetReportMask_eq⟩

end Sys2Proof.Machine
end

section
/-! PROOFS. A raised event: its flag, its record, and the code, Subject byte and Detail of each kind (spec/08, sections
8.1 to 8.3; R186). -/

namespace Sys2Proof.Machine

/-! ## The three ends of a raised event -/

section
variable {a : Agent} {e : Event}

/-- A kind the mask refuses leaves its flag alone behind (R171, R176). -/
theorem Agent.take_of_refused (h : ¬ a.mask.getLsbD e.kind.code = true) (stamp : BitVec 16) :
    a.take e stamp = { a with flags := a.flags ||| e.kind.flag } :=
  if_neg h

/-- An admitted event joins the tail of a queue that has room (R171, R172). -/
theorem Agent.take_of_room (h : a.mask.getLsbD e.kind.code = true) (hroom : a.queue.length < 32)
    (stamp : BitVec 16) :
    a.take e stamp =
      { a with flags := a.flags ||| e.kind.flag, queue := a.queue ++ [e.record stamp] } :=
  (if_pos h).trans (if_pos hroom)

/-- An admitted event that finds the queue full is dropped, and QUEUE_LOST set (R173). -/
theorem Agent.take_of_full (h : a.mask.getLsbD e.kind.code = true) (hfull : 32 ≤ a.queue.length)
    (stamp : BitVec 16) :
    a.take e stamp = { a with flags := a.flags ||| e.kind.flag ||| queueLostFlag } :=
  (if_pos h).trans (if_neg (Nat.not_lt.2 hfull))

end

/-! ## What it leaves at the Agent -/

/-- Only the flags and the queue take part in an event. -/
theorem Agent.take_frame (a : Agent) (e : Event) (stamp : BitVec 16) :
    a.take e stamp = { a with flags := (a.take e stamp).flags, queue := (a.take e stamp).queue } := by
  by_cases hadmit : a.mask.getLsbD e.kind.code = true
  · by_cases hroom : a.queue.length < 32
    · rw [Agent.take_of_room hadmit hroom]
    · rw [Agent.take_of_full hadmit (Nat.not_lt.1 hroom)]
  · rw [Agent.take_of_refused hadmit]

/-- No kind has the code of QUEUE_LOST (R184). -/
theorem EventKind.flag_getLsbD_twelve (k : EventKind) : k.flag.getLsbD 12 = false := by
  rw [EventKind.flag_getLsbD]
  exact decide_eq_false k.code_lt.ne

/-- QUEUE_LOST is set by an admitted event that finds 32 records, and by nothing else (R173). -/
theorem Agent.queueLost_take (a : Agent) (e : Event) (stamp : BitVec 16) :
    (a.take e stamp).flags.getLsbD 12 = true ↔
      a.flags.getLsbD 12 = true ∨ a.mask.getLsbD e.kind.code = true ∧ 32 ≤ a.queue.length := by
  have hkind := e.kind.flag_getLsbD_twelve
  have hlost : queueLostFlag.getLsbD 12 = true := rfl
  by_cases hadmit : a.mask.getLsbD e.kind.code = true
  · by_cases hroom : a.queue.length < 32
    · rw [Agent.take_of_room hadmit hroom, BitVec.getLsbD_or, hkind]
      simp [Nat.not_le.2 hroom]
    · have hfull := Nat.not_lt.1 hroom
      rw [Agent.take_of_full hadmit hfull]
      simp [hlost, hadmit, hfull]
  · rw [Agent.take_of_refused hadmit, BitVec.getLsbD_or, hkind]
    simp [hadmit]

/-- An event that is refused or finds the queue full leaves the queue alone (R171, R173). -/
theorem Agent.queue_take_of_kept {a : Agent} {e : Event}
    (h : ¬ a.mask.getLsbD e.kind.code = true ∨ 32 ≤ a.queue.length) (stamp : BitVec 16) :
    (a.take e stamp).queue = a.queue := by
  by_cases hadmit : a.mask.getLsbD e.kind.code = true
  · rw [Agent.take_of_full hadmit (h.resolve_left (not_not_intro hadmit))]
  · rw [Agent.take_of_refused hadmit]

/-- Settles O32: the frame, the flags and the queue of the Agent that takes the event. -/
theorem eventsAreFlaggedAndQueued : Obligations.EventsAreFlaggedAndQueued := by
  unfold Obligations.EventsAreFlaggedAndQueued
  intro s e
  have hflags {n : Nat} (hn : n ≠ 12) := Agent.flags_take s.agent e (s.link.frameClock.setWidth 16) hn
  refine ⟨congrArg (fun agent => { s with agent }) (Agent.take_frame s.agent e _), ?kindFlag, ?otherFlags,
    Agent.queueLost_take s.agent e _, fun h => Agent.queue_take_of_kept h _, ?record⟩
  case kindFlag => simp [hflags e.kind.code_lt.ne]
  case otherFlags =>
    intro n hne hn
    simp [hflags hn, hne.symm]
  case record =>
    intro hadmit hroom
    have hstamp : s.link.frameClock.setWidth 16 = s.link.frameClock.extractLsb' 0 16 :=
      BitVec.setWidth_eq_extractLsb' (by decide)
    rw [State.agent_raise, Agent.take_of_room hadmit hroom, hstamp]
    rfl

/-! ## Subject bytes and Details as numbers -/

theorem Subject.byte_bank (name : BankName) :
    (Subject.bank name).byte = if name = .a then 0x40 else 0x41 := by
  cases name <;> rfl

/-- Class 2 in bits 7 and 6, and the line in bits 2 to 0 (R186). -/
theorem Subject.byte_line (n : Fin 8) : (Subject.line n).byte = BitVec.ofNat 8 (128 + n.val) := by
  revert n
  decide

/-- A Detail whose low byte is a count that fits it. -/
theorem word16_ofNat_toNat (hi : Byte) {n : Nat} (h : n ≤ 255) :
    (word16 hi (BitVec.ofNat 8 n)).toNat = hi.toNat * 256 + n := by
  rw [word16_toNat, BitVec.toNat_ofNat, Nat.mod_eq_of_lt (by omega)]

/-- The operation in bit 7 and the result code from bit 4 of the high byte (R186; bits 3 to 0: log 12). -/
theorem Event.detail_tableOpDone (bank : BankName) (kind : OpKind) (result : Option CommitFault) {value : Nat}
    (h : value ≤ 255) :
    (Event.tableOpDone bank kind result value).detail.toNat
      = ((if kind = .copy then 0 else 128) + 16 * (resultCode result).toNat) * 256 + value := by
  refine (word16_ofNat_toNat _ h).trans ?_
  have hkind : (kind == .commit).toNat * 128 = if kind = .copy then 0 else 128 := by cases kind <;> rfl
  rw [toNat_append_eq_add, toNat_append_eq_add, bit_toNat, ← hkind, show BitVec.toNat (0 : BitVec 4) = 0 from rfl]
  omega

/-- The cause bytes of FALLBACK (R186; bits 7 to 2 of the low byte: log 12). -/
theorem Event.detail_fallback (entry link stale : Bool) :
    (Event.fallback entry link stale).detail.toNat = entry.toNat * 256 + (link.toNat + 2 * stale.toNat) := by
  cases entry <;> cases link <;> cases stale <;> rfl

/-- The 15 bits of a timestamp fill the Detail from bit 0 (R186). -/
theorem Event.detail_captureOverrun (line : Fin 8) (timestamp : BitVec 15) :
    (Event.captureOverrun line timestamp).detail.toNat
      = timestamp.toNat / 256 * 256 + timestamp.toNat % 256 := by
  rw [Nat.div_add_mod']
  exact (toNat_append_eq_add (0 : BitVec 1) timestamp).trans (by simp)

/-- Settles O33, kind by kind: code and Subject from the definition, the Detail from its two bytes. -/
theorem eventLayout : Obligations.EventLayout := by
  unfold Obligations.EventLayout
  refine ⟨⟨rfl, rfl, rfl⟩, fun scope => ⟨rfl, rfl, word16_toNat 1 scope.code⟩,
    fun old new => ⟨rfl, rfl, word16_toNat old.code new.code⟩,
    fun old new => ⟨rfl, rfl, word16_toNat old new⟩,
    fun expected received => ⟨rfl, rfl, word16_toNat expected received⟩, ?bankSwitched,
    fun state => ⟨⟨rfl, rfl, word16_toNat 0 state.code⟩, ⟨rfl, rfl, word16_toNat 0 state.code⟩⟩, ?tableOpDone,
    ?heartbeat, fun entry link stale => ⟨rfl, rfl, Event.detail_fallback entry link stale⟩,
    fun levels => ⟨rfl, rfl, word16_toNat 0 levels⟩, ?interlock,
    fun line timestamp => ⟨rfl, Subject.byte_line line, Event.detail_captureOverrun line timestamp⟩⟩
  case bankSwitched =>
    intro count hcount
    have hdetail := word16_ofNat_toNat 0 (hcount.trans (by decide))
    exact ⟨⟨rfl, rfl, hdetail⟩, ⟨rfl, rfl, hdetail⟩⟩
  case tableOpDone =>
    intro bank kind value hvalue
    have hdetail (result : Option CommitFault) :=
      Event.detail_tableOpDone bank kind result (hvalue.trans (by decide : 128 ≤ 255))
    exact ⟨⟨rfl, Subject.byte_bank bank, hdetail none⟩,
      ⟨rfl, Subject.byte_bank bank, hdetail (some .slotOrder)⟩,
      ⟨rfl, Subject.byte_bank bank, hdetail (some .doubleInsert)⟩⟩
  case heartbeat =>
    intro stage count hcount
    have hstage : (BitVec.ofNat 8 stage.val).toNat = stage.val := by
      rw [BitVec.toNat_ofNat]
      omega
    have hdetail := word16_ofNat_toNat (BitVec.ofNat 8 stage.val) hcount
    rw [hstage] at hdetail
    exact ⟨rfl, rfl, hdetail⟩
  case interlock =>
    intro set
    have hdetail := word16_toNat 0 (BitVec.setWidth 8 (bit set))
    rw [BitVec.toNat_setWidth_of_le (by decide), bit_toNat] at hdetail
    exact ⟨rfl, rfl, hdetail⟩

end Sys2Proof.Machine
end

section
/-! PROOFS. The node status byte (spec/09, section 9.7: R187; spec/08, section 8.5: R178). -/

namespace Sys2Proof.Machine

/-- Below Attention and above Table Op Busy each bit is its owner's own condition (R187). -/
theorem State.statusByte_bits_between (s : State) :
    s.statusByte.getLsbD 6 = s.level.fallback ∧ s.statusByte.getLsbD 5 = s.level.blackoutInForce
      ∧ s.statusByte.getLsbD 4 = s.sense.active ∧ s.statusByte.getLsbD 3 = s.level.frozen
      ∧ s.statusByte.getLsbD 2 = (s.map.active == .b) ∧ s.statusByte.getLsbD 1 = s.map.misaligned := by
  simp only [State.statusByte, BitVec.getLsbD_append, getLsbD_bit]
  simp

/-- Bank B is the active one where the Active Bank bit is set (R178, R187). -/
theorem State.statusByte_getLsbD_two_iff (s : State) : s.statusByte.getLsbD 2 = true ↔ s.map.active = .b := by
  obtain ⟨-, -, -, -, hactive, -⟩ := s.statusByte_bits_between
  rw [hactive]
  exact s.map.active.beq_b_iff

/-- A table operation is in flight where the Table Op Busy bit is set (R178, R187). -/
theorem State.statusByte_getLsbD_zero_iff (s : State) : s.statusByte.getLsbD 0 = true ↔ s.map.op ≠ none := by
  rw [State.statusByte_getLsbD_zero]
  exact Option.isSome_iff_ne_none

/-- Settles O34: the queue, the active bank and the table operation decide bits 7, 2 and 0; the others are flags that
their owners hold. -/
theorem statusByteConditions : Obligations.StatusByteConditions := by
  unfold Obligations.StatusByteConditions
  intro s
  obtain ⟨hfallback, hblackout, hinterlock, hfrozen, -, hmisaligned⟩ := s.statusByte_bits_between
  exact ⟨s.statusByte_getLsbD_seven, hfallback, hblackout, hinterlock, hfrozen, s.statusByte_getLsbD_two_iff,
    hmisaligned, s.statusByte_getLsbD_zero_iff⟩

end Sys2Proof.Machine
end

section
/-! PROOFS. The command queue: with `step_of_empty`, the second of the two things a step does (spec/95: each row is
one indivisible step). -/

namespace Sys2Proof.Machine

/-- A queue that holds a command gives it up and the command is executed, whatever the rest of the state holds. -/
theorem step_of_pending {s : State} {c : Instr} {rest : List Instr} (h : s.pending = c :: rest) :
    step s = exec c { s with pending := rest } := by
  simp only [step, h]

/-- Settles O1: the queue `c :: rest` is the one that the state is given, and taking `c` from it overwrites nothing
else. -/
theorem stepExecutesTheFrontCommand : Obligations.StepExecutesTheFrontCommand := by
  unfold Obligations.StepExecutesTheFrontCommand
  intro c rest s
  have hqueue : { s with pending := c :: rest }.pending = c :: rest := rfl
  exact step_of_pending hqueue

end Sys2Proof.Machine
end
